-- ==== Sys2Proof/Word.lean ====
section
/-! DEFINITION. The two value widths of the machine (00_scope.md R4, R5). -/

namespace Sys2Proof

/-- `u8` of R5: registers, memory cells, opcode bytes. -/
abbrev Byte := BitVec 8

/-- `u16` of R5: addresses and the program counter. -/
abbrev Word := BitVec 16

end Sys2Proof
end

