-- ==== Sys2Proof/Config.lean ====
section
/-! DEFINITION. What the spec leaves to the machine's surroundings: the parameters of R4 that it does not
fix, and the form of one bus transaction, which a peripheral's answer may depend on. -/

namespace Sys2Proof

/-- One bus transaction (00_scope.md R6): a read of an address and the byte it returned, or a write of a byte
to an address. An item of the bus trace of R8. -/
inductive BusTxn where
  | read (addr : Word) (value : Byte)
  | write (addr : Word) (value : Byte)
  deriving DecidableEq, Repr

/-- `FILL` of R4: what a read of an unmapped address returns. The spec leaves it OPEN, a parameter that belongs to
the bus (R4, 93 row 6), and calls 0xFF conventional only (R61): no body, so nothing can be proved from a particular
value (log 16). -/
opaque Config.fill : Byte

/-- `MAGIC` of R4, the analogue constant of `XAA` and `LAX #`. The spec leaves it OPEN (D18): no body, so
nothing can be proved from a particular value (log 5). -/
opaque Config.magic : Byte

/-- The byte a peripheral returns when the core reads it: a free value. R61: "The returned byte is whatever the
bus gives; the core assumes nothing about it". It may depend on every transaction so far (newest first), so
a read may change what later reads return (R66; log 3). -/
opaque Config.deviceByte : List BusTxn → Word → Byte

end Sys2Proof
end

