-- ==== Sys2Proof/Machine/Bits.lean ====
section
/-! DEFINITION. The notation of R5 (bytes of a word, extensions) and the constants R4 fixes. -/

namespace Sys2Proof

/-- `lo(w) = w[7:0]` (R5). -/
def lo (w : Word) : Byte := w.extractLsb' 0 8

/-- `hi(w) = w[15:8]` (R5): the page of an address (R8). -/
def hi (w : Word) : Byte := w.extractLsb' 8 8

/-- `w16(h, l) = h * 256 + l` (R5). -/
def w16 (h l : Byte) : Word := h ++ l

/-- `zext_16(b)` (R5). -/
def zext16 (b : Byte) : Word := b.setWidth 16

/-- `sext_16(b)` (R5). -/
def sext16 (b : Byte) : Word := b.signExtend 16

/-- The NMI vector (R4, R67). -/
def vecNmi : Word := 0xFFFA

/-- The reset vector (R4, R67). -/
def vecReset : Word := 0xFFFC

/-- The vector IRQ and `BRK` share (R4, R67). -/
def vecIrq : Word := 0xFFFE

/-- The address `SP` denotes, `0x0100 + SP` (R21, R67). -/
def stackAddr (sp : Byte) : Word := 0x0100 + zext16 sp

/-- `SP_RESET` (R4). -/
def spReset : Byte := 0xFD

/-- `INT_CYCLES`: what an NMI or IRQ entry costs (R4). -/
def intCycles : Nat := 7

end Sys2Proof
end

