-- ==== Sys2Proof/Syntax.lean ====
section
/-! DEFINITION. The instructions, as the spec names them: thirteen addressing modes (R91) with their operand
fields, and one constructor for each numbered instruction rule (files 42 to 47). A row of the opcode table
(R95) is a constructor together with an operand form; the rows that a mnemonic and a mode do not tell apart
(`ANC`, the undocumented `NOP`s, `INVALID`) carry their opcode byte (log 9). -/

namespace Sys2Proof

/-- The thirteen addressing modes of R91. There is no fourteenth (R155). -/
inductive Mode where
  | imp | acc | imm | zp | zpx | zpy | rel | izx | izy | abs | abx | aby | ind
  deriving DecidableEq, Repr

/-- Operand bytes of a mode (R91). -/
def Mode.operandBytes : Mode → Nat
  | .imp | .acc => 0
  | .imm | .zp | .zpx | .zpy | .rel | .izx | .izy => 1
  | .abs | .abx | .aby | .ind => 2

/-- An operand form: a mode with its operand field (R91, R92). A two-byte field is the word `w16(hi8, lo8)`. -/
inductive Operand where
  | imp
  | acc
  | imm (d : Byte)
  | zp (d : Byte)
  | zpx (d : Byte)
  | zpy (d : Byte)
  | rel (d : Byte)
  | izx (d : Byte)
  | izy (d : Byte)
  | abs (w : Word)
  | abx (w : Word)
  | aby (w : Word)
  | ind (w : Word)
  deriving DecidableEq, Repr

/-- The addressing mode of an operand form. -/
def Operand.mode : Operand → Mode
  | .imp => .imp
  | .acc => .acc
  | .imm _ => .imm
  | .zp _ => .zp
  | .zpx _ => .zpx
  | .zpy _ => .zpy
  | .rel _ => .rel
  | .izx _ => .izx
  | .izy _ => .izy
  | .abs _ => .abs
  | .abx _ => .abx
  | .aby _ => .aby
  | .ind _ => .ind

/-- The instructions. A mnemonic with several modes takes the operand form; one with a single mode takes its
operand field alone. -/
inductive Instr where
  -- loads, stores, transfers (42_load_store_transfer.md)
  | lda (o : Operand) | ldx (o : Operand) | ldy (o : Operand)
  | sta (o : Operand) | stx (o : Operand) | sty (o : Operand)
  | tax | tay | txa | tya | tsx | txs
  -- logic, arithmetic, compare, bit test (43_logic_arith_compare.md)
  | ora (o : Operand) | and (o : Operand) | eor (o : Operand)
  | adc (o : Operand) | sbc (o : Operand)
  | cmp (o : Operand) | cpx (o : Operand) | cpy (o : Operand)
  | bit (o : Operand)
  -- shifts, rotates, increments, decrements (44_shift_rotate_incdec.md)
  | asl (o : Operand) | lsr (o : Operand) | rol (o : Operand) | ror (o : Operand)
  | inc (o : Operand) | dec (o : Operand)
  | inx | iny | dex | dey
  -- branches, jumps, subroutines (45_branch_jump_subroutine.md)
  | bpl (d : Byte) | bmi (d : Byte) | bvc (d : Byte) | bvs (d : Byte)
  | bcc (d : Byte) | bcs (d : Byte) | bne (d : Byte) | beq (d : Byte)
  | jmp (o : Operand) | jsr (w : Word) | rts
  -- stack, flags, system (46_stack_flag_system.md)
  | pha | php | pla | plp
  | clc | sec | cli | sei | clv | cld | sed
  | nop | brk | rti
  -- undocumented (47_undocumented.md)
  | slo (o : Operand) | rla (o : Operand) | sre (o : Operand) | rra (o : Operand)
  | dcp (o : Operand) | isc (o : Operand)
  | sax (o : Operand) | lax (o : Operand)
  /-- `LAX #`, 0xAB (R271). -/
  | laxImm (d : Byte)
  | las (w : Word)
  /-- `ANC`, 0x0B or 0x2B (R274). -/
  | anc (opcode : Byte) (d : Byte)
  | alr (d : Byte) | arr (d : Byte) | xaa (d : Byte) | axs (d : Byte)
  | ahx (o : Operand) | shy (w : Word) | shx (w : Word) | tas (w : Word)
  /-- One of the 27 undocumented `NOP` encodings (R284). -/
  | nopU (opcode : Byte) (o : Operand)
  /-- `SBC #`, 0xEB (R285). -/
  | sbcU (d : Byte)
  /-- One of the twelve bytes of R97 (R286). -/
  | invalid (opcode : Byte)
  deriving DecidableEq, Repr

/-- The operand form of an instruction. -/
def Instr.operand : Instr → Operand
  | .lda o | .ldx o | .ldy o | .sta o | .stx o | .sty o
  | .ora o | .and o | .eor o | .adc o | .sbc o | .cmp o | .cpx o | .cpy o | .bit o
  | .asl o | .lsr o | .rol o | .ror o | .inc o | .dec o | .jmp o
  | .slo o | .rla o | .sre o | .rra o | .dcp o | .isc o | .sax o | .lax o | .ahx o
  | .nopU _ o => o
  | .bpl d | .bmi d | .bvc d | .bvs d | .bcc d | .bcs d | .bne d | .beq d => .rel d
  | .laxImm d | .anc _ d | .alr d | .arr d | .xaa d | .axs d | .sbcU d => .imm d
  | .jsr w => .abs w
  | .shy w => .abx w
  | .las w | .shx w | .tas w => .aby w
  | .tax | .tay | .txa | .tya | .tsx | .txs | .inx | .iny | .dex | .dey | .rts
  | .pha | .php | .pla | .plp | .clc | .sec | .cli | .sei | .clv | .cld | .sed
  | .nop | .brk | .rti | .invalid _ => .imp

end Sys2Proof
end

