-- ==== Sys2Proof/WellFormed.lean ====
section
/-! DEFINITION. Which instruction terms the opcode table has: the `(mnemonic, mode)` pairs of R95, as the
"Operands" line of each instruction's own rule lists them (R98), and, for the three constructors that carry an
opcode byte, which bytes. -/

namespace Sys2Proof

/-- The twelve `INVALID` bytes (R97). -/
def invalidOpcodes : List Byte :=
  [0x02, 0x12, 0x22, 0x32, 0x42, 0x52, 0x62, 0x72, 0x92, 0xB2, 0xD2, 0xF2]

/-- The undocumented `NOP` encodings of one mode (R284). -/
def nopOpcodes : Mode → List Byte
  | .imp => [0x1A, 0x3A, 0x5A, 0x7A, 0xDA, 0xFA]
  | .imm => [0x80, 0x82, 0x89, 0xC2, 0xE2]
  | .zp => [0x04, 0x44, 0x64]
  | .zpx => [0x14, 0x34, 0x54, 0x74, 0xD4, 0xF4]
  | .abs => [0x0C]
  | .abx => [0x1C, 0x3C, 0x5C, 0x7C, 0xDC, 0xFC]
  | .acc | .zpy | .rel | .izx | .izy | .aby | .ind => []

/-- Is the term a row of the opcode table? -/
def Instr.wellFormed : Instr → Bool
  -- R160, R183 to R188
  | .lda o | .ora o | .and o | .eor o | .adc o | .sbc o | .cmp o =>
    o.mode ∈ [.imm, .zp, .zpx, .abs, .abx, .aby, .izx, .izy]
  | .ldx o => o.mode ∈ [.imm, .zp, .zpy, .abs, .aby]                      -- R161
  | .ldy o => o.mode ∈ [.imm, .zp, .zpx, .abs, .abx]                      -- R162
  | .sta o => o.mode ∈ [.zp, .zpx, .abs, .abx, .aby, .izx, .izy]          -- R163
  | .stx o => o.mode ∈ [.zp, .zpy, .abs]                                  -- R164
  | .sty o => o.mode ∈ [.zp, .zpx, .abs]                                  -- R165
  | .cpx o | .cpy o => o.mode ∈ [.imm, .zp, .abs]                         -- R189, R190
  | .bit o => o.mode ∈ [.zp, .abs]                                        -- R191
  | .asl o | .lsr o | .rol o | .ror o =>
    o.mode ∈ [.acc, .zp, .zpx, .abs, .abx]                                -- R200 to R203
  | .inc o | .dec o => o.mode ∈ [.zp, .zpx, .abs, .abx]                   -- R204, R205
  | .jmp o => o.mode ∈ [.abs, .ind]                                       -- R229
  | .slo o | .rla o | .sre o | .rra o | .dcp o | .isc o =>
    o.mode ∈ [.zp, .zpx, .abs, .abx, .aby, .izx, .izy]                    -- R265 to R268, R272, R273
  | .sax o => o.mode ∈ [.zp, .zpy, .abs, .izx]                            -- R269
  | .lax o => o.mode ∈ [.zp, .zpy, .abs, .aby, .izx, .izy]                -- R270
  | .ahx o => o.mode ∈ [.aby, .izy]                                       -- R279
  | .anc op _ => op ∈ [0x0B, 0x2B]                                        -- R274
  | .nopU op o => op ∈ nopOpcodes o.mode                                  -- R284
  | .invalid op => op ∈ invalidOpcodes                                    -- R97
  | .tax | .tay | .txa | .tya | .tsx | .txs | .inx | .iny | .dex | .dey
  | .bpl _ | .bmi _ | .bvc _ | .bvs _ | .bcc _ | .bcs _ | .bne _ | .beq _
  | .jsr _ | .rts | .pha | .php | .pla | .plp
  | .clc | .sec | .cli | .sei | .clv | .cld | .sed | .nop | .brk | .rti
  | .laxImm _ | .las _ | .alr _ | .arr _ | .xaa _ | .axs _
  | .shy _ | .shx _ | .tas _ | .sbcU _ => true

/-- The term is a row of the opcode table. -/
abbrev Instr.WellFormed (i : Instr) : Prop := i.wellFormed = true

end Sys2Proof
end

