-- ==== Sys2Proof/Decode.lean ====
section
/-! DEFINITION. Decoding: the opcode table of R95 by opcode byte, and the decoder over it, total on any list of
bytes. Then the encoder, written from the other copy of the same facts, the "Operands" line of each instruction's
own rule. That the two agree is proved in Laws/ and stated in Certificates/. -/

namespace Sys2Proof

/-! ## The opcode table, by opcode byte (R95) -/

/-- Which extra-cycle rule a row has: the column `pen` of R95. -/
inductive Penalty where
  | never | cross | branch
  deriving DecidableEq, Repr

/-- The format of a row (R90) with the instruction it makes of its operand bytes. `invalid` is the sentinel of
R97, which consumes nothing. -/
inductive Shape where
  | invalid
  | f1 (i : Instr)
  | f2 (make : Byte → Instr)
  | f3 (make : Word → Instr)

/-- A row of R95: mnemonic, mode and length as a shape, base cycles, penalty. -/
structure Row where
  shape : Shape
  cycles : Nat
  penalty : Penalty

/-- R95, the rows 0x00 to 0x0F. -/
def opcodeRows0 : List Row := [
  ⟨.f1 .brk, 7, .never⟩,
  ⟨.f2 fun d => .ora (.izx d), 6, .never⟩,
  ⟨.invalid, 0, .never⟩,
  ⟨.f2 fun d => .slo (.izx d), 8, .never⟩,
  ⟨.f2 fun d => .nopU 0x04 (.zp d), 3, .never⟩,
  ⟨.f2 fun d => .ora (.zp d), 3, .never⟩,
  ⟨.f2 fun d => .asl (.zp d), 5, .never⟩,
  ⟨.f2 fun d => .slo (.zp d), 5, .never⟩,
  ⟨.f1 .php, 3, .never⟩,
  ⟨.f2 fun d => .ora (.imm d), 2, .never⟩,
  ⟨.f1 (.asl .acc), 2, .never⟩,
  ⟨.f2 (.anc 0x0B), 2, .never⟩,
  ⟨.f3 fun w => .nopU 0x0C (.abs w), 4, .never⟩,
  ⟨.f3 fun w => .ora (.abs w), 4, .never⟩,
  ⟨.f3 fun w => .asl (.abs w), 6, .never⟩,
  ⟨.f3 fun w => .slo (.abs w), 6, .never⟩]

/-- R95, the rows 0x10 to 0x1F. -/
def opcodeRows1 : List Row := [
  ⟨.f2 .bpl, 2, .branch⟩,
  ⟨.f2 fun d => .ora (.izy d), 5, .cross⟩,
  ⟨.invalid, 0, .never⟩,
  ⟨.f2 fun d => .slo (.izy d), 8, .never⟩,
  ⟨.f2 fun d => .nopU 0x14 (.zpx d), 4, .never⟩,
  ⟨.f2 fun d => .ora (.zpx d), 4, .never⟩,
  ⟨.f2 fun d => .asl (.zpx d), 6, .never⟩,
  ⟨.f2 fun d => .slo (.zpx d), 6, .never⟩,
  ⟨.f1 .clc, 2, .never⟩,
  ⟨.f3 fun w => .ora (.aby w), 4, .cross⟩,
  ⟨.f1 (.nopU 0x1A .imp), 2, .never⟩,
  ⟨.f3 fun w => .slo (.aby w), 7, .never⟩,
  ⟨.f3 fun w => .nopU 0x1C (.abx w), 4, .cross⟩,
  ⟨.f3 fun w => .ora (.abx w), 4, .cross⟩,
  ⟨.f3 fun w => .asl (.abx w), 7, .never⟩,
  ⟨.f3 fun w => .slo (.abx w), 7, .never⟩]

/-- R95, the rows 0x20 to 0x2F. -/
def opcodeRows2 : List Row := [
  ⟨.f3 .jsr, 6, .never⟩,
  ⟨.f2 fun d => .and (.izx d), 6, .never⟩,
  ⟨.invalid, 0, .never⟩,
  ⟨.f2 fun d => .rla (.izx d), 8, .never⟩,
  ⟨.f2 fun d => .bit (.zp d), 3, .never⟩,
  ⟨.f2 fun d => .and (.zp d), 3, .never⟩,
  ⟨.f2 fun d => .rol (.zp d), 5, .never⟩,
  ⟨.f2 fun d => .rla (.zp d), 5, .never⟩,
  ⟨.f1 .plp, 4, .never⟩,
  ⟨.f2 fun d => .and (.imm d), 2, .never⟩,
  ⟨.f1 (.rol .acc), 2, .never⟩,
  ⟨.f2 (.anc 0x2B), 2, .never⟩,
  ⟨.f3 fun w => .bit (.abs w), 4, .never⟩,
  ⟨.f3 fun w => .and (.abs w), 4, .never⟩,
  ⟨.f3 fun w => .rol (.abs w), 6, .never⟩,
  ⟨.f3 fun w => .rla (.abs w), 6, .never⟩]

/-- R95, the rows 0x30 to 0x3F. -/
def opcodeRows3 : List Row := [
  ⟨.f2 .bmi, 2, .branch⟩,
  ⟨.f2 fun d => .and (.izy d), 5, .cross⟩,
  ⟨.invalid, 0, .never⟩,
  ⟨.f2 fun d => .rla (.izy d), 8, .never⟩,
  ⟨.f2 fun d => .nopU 0x34 (.zpx d), 4, .never⟩,
  ⟨.f2 fun d => .and (.zpx d), 4, .never⟩,
  ⟨.f2 fun d => .rol (.zpx d), 6, .never⟩,
  ⟨.f2 fun d => .rla (.zpx d), 6, .never⟩,
  ⟨.f1 .sec, 2, .never⟩,
  ⟨.f3 fun w => .and (.aby w), 4, .cross⟩,
  ⟨.f1 (.nopU 0x3A .imp), 2, .never⟩,
  ⟨.f3 fun w => .rla (.aby w), 7, .never⟩,
  ⟨.f3 fun w => .nopU 0x3C (.abx w), 4, .cross⟩,
  ⟨.f3 fun w => .and (.abx w), 4, .cross⟩,
  ⟨.f3 fun w => .rol (.abx w), 7, .never⟩,
  ⟨.f3 fun w => .rla (.abx w), 7, .never⟩]

/-- R95, the rows 0x40 to 0x4F. -/
def opcodeRows4 : List Row := [
  ⟨.f1 .rti, 6, .never⟩,
  ⟨.f2 fun d => .eor (.izx d), 6, .never⟩,
  ⟨.invalid, 0, .never⟩,
  ⟨.f2 fun d => .sre (.izx d), 8, .never⟩,
  ⟨.f2 fun d => .nopU 0x44 (.zp d), 3, .never⟩,
  ⟨.f2 fun d => .eor (.zp d), 3, .never⟩,
  ⟨.f2 fun d => .lsr (.zp d), 5, .never⟩,
  ⟨.f2 fun d => .sre (.zp d), 5, .never⟩,
  ⟨.f1 .pha, 3, .never⟩,
  ⟨.f2 fun d => .eor (.imm d), 2, .never⟩,
  ⟨.f1 (.lsr .acc), 2, .never⟩,
  ⟨.f2 .alr, 2, .never⟩,
  ⟨.f3 fun w => .jmp (.abs w), 3, .never⟩,
  ⟨.f3 fun w => .eor (.abs w), 4, .never⟩,
  ⟨.f3 fun w => .lsr (.abs w), 6, .never⟩,
  ⟨.f3 fun w => .sre (.abs w), 6, .never⟩]

/-- R95, the rows 0x50 to 0x5F. -/
def opcodeRows5 : List Row := [
  ⟨.f2 .bvc, 2, .branch⟩,
  ⟨.f2 fun d => .eor (.izy d), 5, .cross⟩,
  ⟨.invalid, 0, .never⟩,
  ⟨.f2 fun d => .sre (.izy d), 8, .never⟩,
  ⟨.f2 fun d => .nopU 0x54 (.zpx d), 4, .never⟩,
  ⟨.f2 fun d => .eor (.zpx d), 4, .never⟩,
  ⟨.f2 fun d => .lsr (.zpx d), 6, .never⟩,
  ⟨.f2 fun d => .sre (.zpx d), 6, .never⟩,
  ⟨.f1 .cli, 2, .never⟩,
  ⟨.f3 fun w => .eor (.aby w), 4, .cross⟩,
  ⟨.f1 (.nopU 0x5A .imp), 2, .never⟩,
  ⟨.f3 fun w => .sre (.aby w), 7, .never⟩,
  ⟨.f3 fun w => .nopU 0x5C (.abx w), 4, .cross⟩,
  ⟨.f3 fun w => .eor (.abx w), 4, .cross⟩,
  ⟨.f3 fun w => .lsr (.abx w), 7, .never⟩,
  ⟨.f3 fun w => .sre (.abx w), 7, .never⟩]

/-- R95, the rows 0x60 to 0x6F. -/
def opcodeRows6 : List Row := [
  ⟨.f1 .rts, 6, .never⟩,
  ⟨.f2 fun d => .adc (.izx d), 6, .never⟩,
  ⟨.invalid, 0, .never⟩,
  ⟨.f2 fun d => .rra (.izx d), 8, .never⟩,
  ⟨.f2 fun d => .nopU 0x64 (.zp d), 3, .never⟩,
  ⟨.f2 fun d => .adc (.zp d), 3, .never⟩,
  ⟨.f2 fun d => .ror (.zp d), 5, .never⟩,
  ⟨.f2 fun d => .rra (.zp d), 5, .never⟩,
  ⟨.f1 .pla, 4, .never⟩,
  ⟨.f2 fun d => .adc (.imm d), 2, .never⟩,
  ⟨.f1 (.ror .acc), 2, .never⟩,
  ⟨.f2 .arr, 2, .never⟩,
  ⟨.f3 fun w => .jmp (.ind w), 5, .never⟩,
  ⟨.f3 fun w => .adc (.abs w), 4, .never⟩,
  ⟨.f3 fun w => .ror (.abs w), 6, .never⟩,
  ⟨.f3 fun w => .rra (.abs w), 6, .never⟩]

/-- R95, the rows 0x70 to 0x7F. -/
def opcodeRows7 : List Row := [
  ⟨.f2 .bvs, 2, .branch⟩,
  ⟨.f2 fun d => .adc (.izy d), 5, .cross⟩,
  ⟨.invalid, 0, .never⟩,
  ⟨.f2 fun d => .rra (.izy d), 8, .never⟩,
  ⟨.f2 fun d => .nopU 0x74 (.zpx d), 4, .never⟩,
  ⟨.f2 fun d => .adc (.zpx d), 4, .never⟩,
  ⟨.f2 fun d => .ror (.zpx d), 6, .never⟩,
  ⟨.f2 fun d => .rra (.zpx d), 6, .never⟩,
  ⟨.f1 .sei, 2, .never⟩,
  ⟨.f3 fun w => .adc (.aby w), 4, .cross⟩,
  ⟨.f1 (.nopU 0x7A .imp), 2, .never⟩,
  ⟨.f3 fun w => .rra (.aby w), 7, .never⟩,
  ⟨.f3 fun w => .nopU 0x7C (.abx w), 4, .cross⟩,
  ⟨.f3 fun w => .adc (.abx w), 4, .cross⟩,
  ⟨.f3 fun w => .ror (.abx w), 7, .never⟩,
  ⟨.f3 fun w => .rra (.abx w), 7, .never⟩]

/-- R95, the rows 0x80 to 0x8F. -/
def opcodeRows8 : List Row := [
  ⟨.f2 fun d => .nopU 0x80 (.imm d), 2, .never⟩,
  ⟨.f2 fun d => .sta (.izx d), 6, .never⟩,
  ⟨.f2 fun d => .nopU 0x82 (.imm d), 2, .never⟩,
  ⟨.f2 fun d => .sax (.izx d), 6, .never⟩,
  ⟨.f2 fun d => .sty (.zp d), 3, .never⟩,
  ⟨.f2 fun d => .sta (.zp d), 3, .never⟩,
  ⟨.f2 fun d => .stx (.zp d), 3, .never⟩,
  ⟨.f2 fun d => .sax (.zp d), 3, .never⟩,
  ⟨.f1 .dey, 2, .never⟩,
  ⟨.f2 fun d => .nopU 0x89 (.imm d), 2, .never⟩,
  ⟨.f1 .txa, 2, .never⟩,
  ⟨.f2 .xaa, 2, .never⟩,
  ⟨.f3 fun w => .sty (.abs w), 4, .never⟩,
  ⟨.f3 fun w => .sta (.abs w), 4, .never⟩,
  ⟨.f3 fun w => .stx (.abs w), 4, .never⟩,
  ⟨.f3 fun w => .sax (.abs w), 4, .never⟩]

/-- R95, the rows 0x90 to 0x9F. -/
def opcodeRows9 : List Row := [
  ⟨.f2 .bcc, 2, .branch⟩,
  ⟨.f2 fun d => .sta (.izy d), 6, .never⟩,
  ⟨.invalid, 0, .never⟩,
  ⟨.f2 fun d => .ahx (.izy d), 6, .never⟩,
  ⟨.f2 fun d => .sty (.zpx d), 4, .never⟩,
  ⟨.f2 fun d => .sta (.zpx d), 4, .never⟩,
  ⟨.f2 fun d => .stx (.zpy d), 4, .never⟩,
  ⟨.f2 fun d => .sax (.zpy d), 4, .never⟩,
  ⟨.f1 .tya, 2, .never⟩,
  ⟨.f3 fun w => .sta (.aby w), 5, .never⟩,
  ⟨.f1 .txs, 2, .never⟩,
  ⟨.f3 .tas, 5, .never⟩,
  ⟨.f3 .shy, 5, .never⟩,
  ⟨.f3 fun w => .sta (.abx w), 5, .never⟩,
  ⟨.f3 .shx, 5, .never⟩,
  ⟨.f3 fun w => .ahx (.aby w), 5, .never⟩]

/-- R95, the rows 0xA0 to 0xAF. -/
def opcodeRowsA : List Row := [
  ⟨.f2 fun d => .ldy (.imm d), 2, .never⟩,
  ⟨.f2 fun d => .lda (.izx d), 6, .never⟩,
  ⟨.f2 fun d => .ldx (.imm d), 2, .never⟩,
  ⟨.f2 fun d => .lax (.izx d), 6, .never⟩,
  ⟨.f2 fun d => .ldy (.zp d), 3, .never⟩,
  ⟨.f2 fun d => .lda (.zp d), 3, .never⟩,
  ⟨.f2 fun d => .ldx (.zp d), 3, .never⟩,
  ⟨.f2 fun d => .lax (.zp d), 3, .never⟩,
  ⟨.f1 .tay, 2, .never⟩,
  ⟨.f2 fun d => .lda (.imm d), 2, .never⟩,
  ⟨.f1 .tax, 2, .never⟩,
  ⟨.f2 .laxImm, 2, .never⟩,
  ⟨.f3 fun w => .ldy (.abs w), 4, .never⟩,
  ⟨.f3 fun w => .lda (.abs w), 4, .never⟩,
  ⟨.f3 fun w => .ldx (.abs w), 4, .never⟩,
  ⟨.f3 fun w => .lax (.abs w), 4, .never⟩]

/-- R95, the rows 0xB0 to 0xBF. -/
def opcodeRowsB : List Row := [
  ⟨.f2 .bcs, 2, .branch⟩,
  ⟨.f2 fun d => .lda (.izy d), 5, .cross⟩,
  ⟨.invalid, 0, .never⟩,
  ⟨.f2 fun d => .lax (.izy d), 5, .cross⟩,
  ⟨.f2 fun d => .ldy (.zpx d), 4, .never⟩,
  ⟨.f2 fun d => .lda (.zpx d), 4, .never⟩,
  ⟨.f2 fun d => .ldx (.zpy d), 4, .never⟩,
  ⟨.f2 fun d => .lax (.zpy d), 4, .never⟩,
  ⟨.f1 .clv, 2, .never⟩,
  ⟨.f3 fun w => .lda (.aby w), 4, .cross⟩,
  ⟨.f1 .tsx, 2, .never⟩,
  ⟨.f3 .las, 4, .cross⟩,
  ⟨.f3 fun w => .ldy (.abx w), 4, .cross⟩,
  ⟨.f3 fun w => .lda (.abx w), 4, .cross⟩,
  ⟨.f3 fun w => .ldx (.aby w), 4, .cross⟩,
  ⟨.f3 fun w => .lax (.aby w), 4, .cross⟩]

/-- R95, the rows 0xC0 to 0xCF. -/
def opcodeRowsC : List Row := [
  ⟨.f2 fun d => .cpy (.imm d), 2, .never⟩,
  ⟨.f2 fun d => .cmp (.izx d), 6, .never⟩,
  ⟨.f2 fun d => .nopU 0xC2 (.imm d), 2, .never⟩,
  ⟨.f2 fun d => .dcp (.izx d), 8, .never⟩,
  ⟨.f2 fun d => .cpy (.zp d), 3, .never⟩,
  ⟨.f2 fun d => .cmp (.zp d), 3, .never⟩,
  ⟨.f2 fun d => .dec (.zp d), 5, .never⟩,
  ⟨.f2 fun d => .dcp (.zp d), 5, .never⟩,
  ⟨.f1 .iny, 2, .never⟩,
  ⟨.f2 fun d => .cmp (.imm d), 2, .never⟩,
  ⟨.f1 .dex, 2, .never⟩,
  ⟨.f2 .axs, 2, .never⟩,
  ⟨.f3 fun w => .cpy (.abs w), 4, .never⟩,
  ⟨.f3 fun w => .cmp (.abs w), 4, .never⟩,
  ⟨.f3 fun w => .dec (.abs w), 6, .never⟩,
  ⟨.f3 fun w => .dcp (.abs w), 6, .never⟩]

/-- R95, the rows 0xD0 to 0xDF. -/
def opcodeRowsD : List Row := [
  ⟨.f2 .bne, 2, .branch⟩,
  ⟨.f2 fun d => .cmp (.izy d), 5, .cross⟩,
  ⟨.invalid, 0, .never⟩,
  ⟨.f2 fun d => .dcp (.izy d), 8, .never⟩,
  ⟨.f2 fun d => .nopU 0xD4 (.zpx d), 4, .never⟩,
  ⟨.f2 fun d => .cmp (.zpx d), 4, .never⟩,
  ⟨.f2 fun d => .dec (.zpx d), 6, .never⟩,
  ⟨.f2 fun d => .dcp (.zpx d), 6, .never⟩,
  ⟨.f1 .cld, 2, .never⟩,
  ⟨.f3 fun w => .cmp (.aby w), 4, .cross⟩,
  ⟨.f1 (.nopU 0xDA .imp), 2, .never⟩,
  ⟨.f3 fun w => .dcp (.aby w), 7, .never⟩,
  ⟨.f3 fun w => .nopU 0xDC (.abx w), 4, .cross⟩,
  ⟨.f3 fun w => .cmp (.abx w), 4, .cross⟩,
  ⟨.f3 fun w => .dec (.abx w), 7, .never⟩,
  ⟨.f3 fun w => .dcp (.abx w), 7, .never⟩]

/-- R95, the rows 0xE0 to 0xEF. -/
def opcodeRowsE : List Row := [
  ⟨.f2 fun d => .cpx (.imm d), 2, .never⟩,
  ⟨.f2 fun d => .sbc (.izx d), 6, .never⟩,
  ⟨.f2 fun d => .nopU 0xE2 (.imm d), 2, .never⟩,
  ⟨.f2 fun d => .isc (.izx d), 8, .never⟩,
  ⟨.f2 fun d => .cpx (.zp d), 3, .never⟩,
  ⟨.f2 fun d => .sbc (.zp d), 3, .never⟩,
  ⟨.f2 fun d => .inc (.zp d), 5, .never⟩,
  ⟨.f2 fun d => .isc (.zp d), 5, .never⟩,
  ⟨.f1 .inx, 2, .never⟩,
  ⟨.f2 fun d => .sbc (.imm d), 2, .never⟩,
  ⟨.f1 .nop, 2, .never⟩,
  ⟨.f2 .sbcU, 2, .never⟩,
  ⟨.f3 fun w => .cpx (.abs w), 4, .never⟩,
  ⟨.f3 fun w => .sbc (.abs w), 4, .never⟩,
  ⟨.f3 fun w => .inc (.abs w), 6, .never⟩,
  ⟨.f3 fun w => .isc (.abs w), 6, .never⟩]

/-- R95, the rows 0xF0 to 0xFF. -/
def opcodeRowsF : List Row := [
  ⟨.f2 .beq, 2, .branch⟩,
  ⟨.f2 fun d => .sbc (.izy d), 5, .cross⟩,
  ⟨.invalid, 0, .never⟩,
  ⟨.f2 fun d => .isc (.izy d), 8, .never⟩,
  ⟨.f2 fun d => .nopU 0xF4 (.zpx d), 4, .never⟩,
  ⟨.f2 fun d => .sbc (.zpx d), 4, .never⟩,
  ⟨.f2 fun d => .inc (.zpx d), 6, .never⟩,
  ⟨.f2 fun d => .isc (.zpx d), 6, .never⟩,
  ⟨.f1 .sed, 2, .never⟩,
  ⟨.f3 fun w => .sbc (.aby w), 4, .cross⟩,
  ⟨.f1 (.nopU 0xFA .imp), 2, .never⟩,
  ⟨.f3 fun w => .isc (.aby w), 7, .never⟩,
  ⟨.f3 fun w => .nopU 0xFC (.abx w), 4, .cross⟩,
  ⟨.f3 fun w => .sbc (.abx w), 4, .cross⟩,
  ⟨.f3 fun w => .inc (.abx w), 7, .never⟩,
  ⟨.f3 fun w => .isc (.abx w), 7, .never⟩]

/-- The table of R95, in the order of the opcode byte. -/
def opcodeTable : List Row :=
  opcodeRows0 ++ opcodeRows1 ++ opcodeRows2 ++ opcodeRows3 ++ opcodeRows4 ++ opcodeRows5 ++ opcodeRows6 ++
  opcodeRows7 ++ opcodeRows8 ++ opcodeRows9 ++ opcodeRowsA ++ opcodeRowsB ++ opcodeRowsC ++ opcodeRowsD ++
  opcodeRowsE ++ opcodeRowsF

/-- `OpcodeTable[opcode]`, a constant function of the opcode byte (R93). The table has 256 rows, so the default
is never used (`Laws.opcodeTable_length`). -/
def opcodeRow (op : Byte) : Row := opcodeTable.getD op.toNat ⟨.invalid, 0, .never⟩

/-- Operand bytes a row consumes (R90). -/
def Shape.operandBytes : Shape → Nat
  | .invalid | .f1 _ => 0
  | .f2 _ => 1
  | .f3 _ => 2

/-! ## The decoder -/

/-- Why a list of bytes is no instruction. Every opcode byte is decoded (R93): only missing bytes are refused. -/
inductive DecodeError where
  /-- No byte at all. -/
  | noOpcode
  /-- Fewer operand bytes than the opcode's format has. -/
  | missingOperand (opcode : Byte)
  deriving DecidableEq, Repr

/-- The instruction at the head of a list of bytes, and the bytes after it. -/
def decode : List Byte → Except DecodeError (Instr × List Byte)
  | [] => .error .noOpcode
  | op :: rest =>
    match (opcodeRow op).shape, rest with
    | .invalid, _ => .ok (.invalid op, rest)
    | .f1 i, _ => .ok (i, rest)
    | .f2 make, b1 :: tail => .ok (make b1, tail)
    | .f3 make, b1 :: b2 :: tail => .ok (make (w16 b2 b1), tail)
    | _, _ => .error (.missingOperand op)

/-- Byte `k` of the bits `w` of a table word, of which only `nbits` are given. -/
def tableByte (nbits w k : Nat) : Byte := BitVec.ofNat 8 ((w % 2 ^ nbits) >>> (8 * k))

/-- The three bytes of a table word: the longest instruction, the bits above `nbits` zero. -/
def tableBytes (nbits w : Nat) : List Byte := [tableByte nbits w 0, tableByte nbits w 1, tableByte nbits w 2]

/-- What the decoder reads from a table word. -/
def decodeTableWord (nbits w : Nat) : Option Instr :=
  match decode (tableBytes nbits w) with
  | .ok (i, _) => some i
  | .error _ => none

/-! ## The encoder, from each instruction's own rule -/

/-- An instruction's encoding and timing as its rule's "Operands" line gives them: opcode byte, base cycles, and
whether a `+` (one more cycle on a page crossing) or the branch rule applies. -/
structure Form where
  opcode : Byte
  cycles : Nat
  penalty : Penalty
  deriving DecidableEq, Repr

/-- Base cycles and penalty of the undocumented `NOP`s by mode (R284). -/
def nopTiming : Mode → Nat × Penalty
  | .zp => (3, .never)
  | .zpx | .abs => (4, .never)
  | .abx => (4, .cross)
  | _ => (2, .never)

/-- The form of an instruction; `none` for a term that is no row of the table (R98, R303). -/
def Instr.form : Instr → Option Form
  | .lda o => match o with  -- R160
    | .imm _ => some ⟨0xA9, 2, .never⟩
    | .zp _ => some ⟨0xA5, 3, .never⟩
    | .zpx _ => some ⟨0xB5, 4, .never⟩
    | .abs _ => some ⟨0xAD, 4, .never⟩
    | .abx _ => some ⟨0xBD, 4, .cross⟩
    | .aby _ => some ⟨0xB9, 4, .cross⟩
    | .izx _ => some ⟨0xA1, 6, .never⟩
    | .izy _ => some ⟨0xB1, 5, .cross⟩
    | _ => none
  | .ldx o => match o with  -- R161
    | .imm _ => some ⟨0xA2, 2, .never⟩
    | .zp _ => some ⟨0xA6, 3, .never⟩
    | .zpy _ => some ⟨0xB6, 4, .never⟩
    | .abs _ => some ⟨0xAE, 4, .never⟩
    | .aby _ => some ⟨0xBE, 4, .cross⟩
    | _ => none
  | .ldy o => match o with  -- R162
    | .imm _ => some ⟨0xA0, 2, .never⟩
    | .zp _ => some ⟨0xA4, 3, .never⟩
    | .zpx _ => some ⟨0xB4, 4, .never⟩
    | .abs _ => some ⟨0xAC, 4, .never⟩
    | .abx _ => some ⟨0xBC, 4, .cross⟩
    | _ => none
  | .sta o => match o with  -- R163
    | .zp _ => some ⟨0x85, 3, .never⟩
    | .zpx _ => some ⟨0x95, 4, .never⟩
    | .abs _ => some ⟨0x8D, 4, .never⟩
    | .abx _ => some ⟨0x9D, 5, .never⟩
    | .aby _ => some ⟨0x99, 5, .never⟩
    | .izx _ => some ⟨0x81, 6, .never⟩
    | .izy _ => some ⟨0x91, 6, .never⟩
    | _ => none
  | .stx o => match o with  -- R164
    | .zp _ => some ⟨0x86, 3, .never⟩
    | .zpy _ => some ⟨0x96, 4, .never⟩
    | .abs _ => some ⟨0x8E, 4, .never⟩
    | _ => none
  | .sty o => match o with  -- R165
    | .zp _ => some ⟨0x84, 3, .never⟩
    | .zpx _ => some ⟨0x94, 4, .never⟩
    | .abs _ => some ⟨0x8C, 4, .never⟩
    | _ => none
  | .ora o => match o with  -- R183
    | .imm _ => some ⟨0x09, 2, .never⟩
    | .zp _ => some ⟨0x05, 3, .never⟩
    | .zpx _ => some ⟨0x15, 4, .never⟩
    | .abs _ => some ⟨0x0D, 4, .never⟩
    | .abx _ => some ⟨0x1D, 4, .cross⟩
    | .aby _ => some ⟨0x19, 4, .cross⟩
    | .izx _ => some ⟨0x01, 6, .never⟩
    | .izy _ => some ⟨0x11, 5, .cross⟩
    | _ => none
  | .and o => match o with  -- R184
    | .imm _ => some ⟨0x29, 2, .never⟩
    | .zp _ => some ⟨0x25, 3, .never⟩
    | .zpx _ => some ⟨0x35, 4, .never⟩
    | .abs _ => some ⟨0x2D, 4, .never⟩
    | .abx _ => some ⟨0x3D, 4, .cross⟩
    | .aby _ => some ⟨0x39, 4, .cross⟩
    | .izx _ => some ⟨0x21, 6, .never⟩
    | .izy _ => some ⟨0x31, 5, .cross⟩
    | _ => none
  | .eor o => match o with  -- R185
    | .imm _ => some ⟨0x49, 2, .never⟩
    | .zp _ => some ⟨0x45, 3, .never⟩
    | .zpx _ => some ⟨0x55, 4, .never⟩
    | .abs _ => some ⟨0x4D, 4, .never⟩
    | .abx _ => some ⟨0x5D, 4, .cross⟩
    | .aby _ => some ⟨0x59, 4, .cross⟩
    | .izx _ => some ⟨0x41, 6, .never⟩
    | .izy _ => some ⟨0x51, 5, .cross⟩
    | _ => none
  | .adc o => match o with  -- R186
    | .imm _ => some ⟨0x69, 2, .never⟩
    | .zp _ => some ⟨0x65, 3, .never⟩
    | .zpx _ => some ⟨0x75, 4, .never⟩
    | .abs _ => some ⟨0x6D, 4, .never⟩
    | .abx _ => some ⟨0x7D, 4, .cross⟩
    | .aby _ => some ⟨0x79, 4, .cross⟩
    | .izx _ => some ⟨0x61, 6, .never⟩
    | .izy _ => some ⟨0x71, 5, .cross⟩
    | _ => none
  | .sbc o => match o with  -- R187
    | .imm _ => some ⟨0xE9, 2, .never⟩
    | .zp _ => some ⟨0xE5, 3, .never⟩
    | .zpx _ => some ⟨0xF5, 4, .never⟩
    | .abs _ => some ⟨0xED, 4, .never⟩
    | .abx _ => some ⟨0xFD, 4, .cross⟩
    | .aby _ => some ⟨0xF9, 4, .cross⟩
    | .izx _ => some ⟨0xE1, 6, .never⟩
    | .izy _ => some ⟨0xF1, 5, .cross⟩
    | _ => none
  | .cmp o => match o with  -- R188
    | .imm _ => some ⟨0xC9, 2, .never⟩
    | .zp _ => some ⟨0xC5, 3, .never⟩
    | .zpx _ => some ⟨0xD5, 4, .never⟩
    | .abs _ => some ⟨0xCD, 4, .never⟩
    | .abx _ => some ⟨0xDD, 4, .cross⟩
    | .aby _ => some ⟨0xD9, 4, .cross⟩
    | .izx _ => some ⟨0xC1, 6, .never⟩
    | .izy _ => some ⟨0xD1, 5, .cross⟩
    | _ => none
  | .cpx o => match o with  -- R189
    | .imm _ => some ⟨0xE0, 2, .never⟩
    | .zp _ => some ⟨0xE4, 3, .never⟩
    | .abs _ => some ⟨0xEC, 4, .never⟩
    | _ => none
  | .cpy o => match o with  -- R190
    | .imm _ => some ⟨0xC0, 2, .never⟩
    | .zp _ => some ⟨0xC4, 3, .never⟩
    | .abs _ => some ⟨0xCC, 4, .never⟩
    | _ => none
  | .bit o => match o with  -- R191
    | .zp _ => some ⟨0x24, 3, .never⟩
    | .abs _ => some ⟨0x2C, 4, .never⟩
    | _ => none
  | .asl o => match o with  -- R200
    | .acc => some ⟨0x0A, 2, .never⟩
    | .zp _ => some ⟨0x06, 5, .never⟩
    | .zpx _ => some ⟨0x16, 6, .never⟩
    | .abs _ => some ⟨0x0E, 6, .never⟩
    | .abx _ => some ⟨0x1E, 7, .never⟩
    | _ => none
  | .lsr o => match o with  -- R201
    | .acc => some ⟨0x4A, 2, .never⟩
    | .zp _ => some ⟨0x46, 5, .never⟩
    | .zpx _ => some ⟨0x56, 6, .never⟩
    | .abs _ => some ⟨0x4E, 6, .never⟩
    | .abx _ => some ⟨0x5E, 7, .never⟩
    | _ => none
  | .rol o => match o with  -- R202
    | .acc => some ⟨0x2A, 2, .never⟩
    | .zp _ => some ⟨0x26, 5, .never⟩
    | .zpx _ => some ⟨0x36, 6, .never⟩
    | .abs _ => some ⟨0x2E, 6, .never⟩
    | .abx _ => some ⟨0x3E, 7, .never⟩
    | _ => none
  | .ror o => match o with  -- R203
    | .acc => some ⟨0x6A, 2, .never⟩
    | .zp _ => some ⟨0x66, 5, .never⟩
    | .zpx _ => some ⟨0x76, 6, .never⟩
    | .abs _ => some ⟨0x6E, 6, .never⟩
    | .abx _ => some ⟨0x7E, 7, .never⟩
    | _ => none
  | .inc o => match o with  -- R204
    | .zp _ => some ⟨0xE6, 5, .never⟩
    | .zpx _ => some ⟨0xF6, 6, .never⟩
    | .abs _ => some ⟨0xEE, 6, .never⟩
    | .abx _ => some ⟨0xFE, 7, .never⟩
    | _ => none
  | .dec o => match o with  -- R205
    | .zp _ => some ⟨0xC6, 5, .never⟩
    | .zpx _ => some ⟨0xD6, 6, .never⟩
    | .abs _ => some ⟨0xCE, 6, .never⟩
    | .abx _ => some ⟨0xDE, 7, .never⟩
    | _ => none
  | .jmp o => match o with  -- R229
    | .abs _ => some ⟨0x4C, 3, .never⟩
    | .ind _ => some ⟨0x6C, 5, .never⟩
    | _ => none
  | .slo o => match o with  -- R265
    | .zp _ => some ⟨0x07, 5, .never⟩
    | .zpx _ => some ⟨0x17, 6, .never⟩
    | .abs _ => some ⟨0x0F, 6, .never⟩
    | .abx _ => some ⟨0x1F, 7, .never⟩
    | .aby _ => some ⟨0x1B, 7, .never⟩
    | .izx _ => some ⟨0x03, 8, .never⟩
    | .izy _ => some ⟨0x13, 8, .never⟩
    | _ => none
  | .rla o => match o with  -- R266
    | .zp _ => some ⟨0x27, 5, .never⟩
    | .zpx _ => some ⟨0x37, 6, .never⟩
    | .abs _ => some ⟨0x2F, 6, .never⟩
    | .abx _ => some ⟨0x3F, 7, .never⟩
    | .aby _ => some ⟨0x3B, 7, .never⟩
    | .izx _ => some ⟨0x23, 8, .never⟩
    | .izy _ => some ⟨0x33, 8, .never⟩
    | _ => none
  | .sre o => match o with  -- R267
    | .zp _ => some ⟨0x47, 5, .never⟩
    | .zpx _ => some ⟨0x57, 6, .never⟩
    | .abs _ => some ⟨0x4F, 6, .never⟩
    | .abx _ => some ⟨0x5F, 7, .never⟩
    | .aby _ => some ⟨0x5B, 7, .never⟩
    | .izx _ => some ⟨0x43, 8, .never⟩
    | .izy _ => some ⟨0x53, 8, .never⟩
    | _ => none
  | .rra o => match o with  -- R268
    | .zp _ => some ⟨0x67, 5, .never⟩
    | .zpx _ => some ⟨0x77, 6, .never⟩
    | .abs _ => some ⟨0x6F, 6, .never⟩
    | .abx _ => some ⟨0x7F, 7, .never⟩
    | .aby _ => some ⟨0x7B, 7, .never⟩
    | .izx _ => some ⟨0x63, 8, .never⟩
    | .izy _ => some ⟨0x73, 8, .never⟩
    | _ => none
  | .dcp o => match o with  -- R272
    | .zp _ => some ⟨0xC7, 5, .never⟩
    | .zpx _ => some ⟨0xD7, 6, .never⟩
    | .abs _ => some ⟨0xCF, 6, .never⟩
    | .abx _ => some ⟨0xDF, 7, .never⟩
    | .aby _ => some ⟨0xDB, 7, .never⟩
    | .izx _ => some ⟨0xC3, 8, .never⟩
    | .izy _ => some ⟨0xD3, 8, .never⟩
    | _ => none
  | .isc o => match o with  -- R273
    | .zp _ => some ⟨0xE7, 5, .never⟩
    | .zpx _ => some ⟨0xF7, 6, .never⟩
    | .abs _ => some ⟨0xEF, 6, .never⟩
    | .abx _ => some ⟨0xFF, 7, .never⟩
    | .aby _ => some ⟨0xFB, 7, .never⟩
    | .izx _ => some ⟨0xE3, 8, .never⟩
    | .izy _ => some ⟨0xF3, 8, .never⟩
    | _ => none
  | .sax o => match o with  -- R269
    | .zp _ => some ⟨0x87, 3, .never⟩
    | .zpy _ => some ⟨0x97, 4, .never⟩
    | .abs _ => some ⟨0x8F, 4, .never⟩
    | .izx _ => some ⟨0x83, 6, .never⟩
    | _ => none
  | .lax o => match o with  -- R270
    | .zp _ => some ⟨0xA7, 3, .never⟩
    | .zpy _ => some ⟨0xB7, 4, .never⟩
    | .abs _ => some ⟨0xAF, 4, .never⟩
    | .aby _ => some ⟨0xBF, 4, .cross⟩
    | .izx _ => some ⟨0xA3, 6, .never⟩
    | .izy _ => some ⟨0xB3, 5, .cross⟩
    | _ => none
  | .ahx o => match o with  -- R279
    | .aby _ => some ⟨0x9F, 5, .never⟩
    | .izy _ => some ⟨0x93, 6, .never⟩
    | _ => none
  -- R166 to R171, R206 to R209: mode IMP, 2 cycles
  | .tax => some ⟨0xAA, 2, .never⟩
  | .tay => some ⟨0xA8, 2, .never⟩
  | .txa => some ⟨0x8A, 2, .never⟩
  | .tya => some ⟨0x98, 2, .never⟩
  | .tsx => some ⟨0xBA, 2, .never⟩
  | .txs => some ⟨0x9A, 2, .never⟩
  | .inx => some ⟨0xE8, 2, .never⟩
  | .iny => some ⟨0xC8, 2, .never⟩
  | .dex => some ⟨0xCA, 2, .never⟩
  | .dey => some ⟨0x88, 2, .never⟩
  -- R220 to R228: mode REL, base 2 cycles
  | .bpl _ => some ⟨0x10, 2, .branch⟩
  | .bmi _ => some ⟨0x30, 2, .branch⟩
  | .bvc _ => some ⟨0x50, 2, .branch⟩
  | .bvs _ => some ⟨0x70, 2, .branch⟩
  | .bcc _ => some ⟨0x90, 2, .branch⟩
  | .bcs _ => some ⟨0xB0, 2, .branch⟩
  | .bne _ => some ⟨0xD0, 2, .branch⟩
  | .beq _ => some ⟨0xF0, 2, .branch⟩
  -- R230, R231
  | .jsr _ => some ⟨0x20, 6, .never⟩
  | .rts => some ⟨0x60, 6, .never⟩
  -- R240 to R251
  | .pha => some ⟨0x48, 3, .never⟩
  | .php => some ⟨0x08, 3, .never⟩
  | .pla => some ⟨0x68, 4, .never⟩
  | .plp => some ⟨0x28, 4, .never⟩
  | .clc => some ⟨0x18, 2, .never⟩
  | .sec => some ⟨0x38, 2, .never⟩
  | .cli => some ⟨0x58, 2, .never⟩
  | .sei => some ⟨0x78, 2, .never⟩
  | .clv => some ⟨0xB8, 2, .never⟩
  | .cld => some ⟨0xD8, 2, .never⟩
  | .sed => some ⟨0xF8, 2, .never⟩
  | .nop => some ⟨0xEA, 2, .never⟩
  -- R252, R253
  | .brk => some ⟨0x00, 7, .never⟩
  | .rti => some ⟨0x40, 6, .never⟩
  -- R271, R274 to R278, R280 to R283, R285
  | .laxImm _ => some ⟨0xAB, 2, .never⟩
  | .las _ => some ⟨0xBB, 4, .cross⟩
  | .anc op _ => if op ∈ [0x0B, 0x2B] then some ⟨op, 2, .never⟩ else none
  | .alr _ => some ⟨0x4B, 2, .never⟩
  | .arr _ => some ⟨0x6B, 2, .never⟩
  | .xaa _ => some ⟨0x8B, 2, .never⟩
  | .axs _ => some ⟨0xCB, 2, .never⟩
  | .shy _ => some ⟨0x9C, 5, .never⟩
  | .shx _ => some ⟨0x9E, 5, .never⟩
  | .tas _ => some ⟨0x9B, 5, .never⟩
  | .sbcU _ => some ⟨0xEB, 2, .never⟩
  -- R284
  | .nopU op o =>
    if op ∈ nopOpcodes o.mode then some ⟨op, (nopTiming o.mode).1, (nopTiming o.mode).2⟩ else none
  -- R286, R97: no cycles are charged
  | .invalid op => if op ∈ invalidOpcodes then some ⟨op, 0, .never⟩ else none

/-- The operand bytes of an operand form, the low byte at the lower address (R92). -/
def Operand.bytes : Operand → List Byte
  | .imp | .acc => []
  | .imm d | .zp d | .zpx d | .zpy d | .rel d | .izx d | .izy d => [d]
  | .abs w | .abx w | .aby w | .ind w => [lo w, hi w]

/-- The bytes of a well-formed instruction; no bytes for a term that is no row of the table. -/
def encode (i : Instr) : List Byte :=
  match i.form with
  | some f => f.opcode :: i.operand.bytes
  | none => []

/-- By how much fetching the instruction advances `PC`: past its opcode and operand bytes (R22, R124), and not
at all for `INVALID`, whose fault is raised before (R128). `BRK`'s padding byte is not counted (R90, R343). -/
def Instr.fetchLength : Instr → Nat
  | .invalid _ => 0
  | i => 1 + i.operand.mode.operandBytes

end Sys2Proof
end

