-- ==== Sys2Proof/Machine/Memory.lean ====
section
/-! DEFINITION. The contents of the address space (R60) as a list of cells in one canonical form: addresses strictly
rising and below 65536, and no cell equal to what an unlisted address reads as. -/

namespace Sys2Proof.Machine

/-- Cells by address. -/
abbrev Memory := List Host.Cell

namespace Memory

/-- What an address that is not listed reads as. DESIGN CHOICE (log 1), unsafe. -/
def unlisted : Byte := 0xFF

/-- The byte at an address. -/
def read : Memory → Nat → Byte
  | [], _ => unlisted
  | (k, v) :: rest, a => if k = a then v else read rest a

/-- A cell put in front of cells of higher addresses, unless it need not be listed. -/
def put (a : Nat) (v : Byte) (rest : Memory) : Memory := if v = unlisted then rest else (a, v) :: rest

/-- The memory with one byte changed, in canonical form again. -/
def write : Memory → Nat → Byte → Memory
  | [], a, v => put a v []
  | (k, w) :: rest, a, v =>
    if a < k then put a v ((k, w) :: rest)
    else if a = k then put a v rest
    else (k, w) :: write rest a v

/-- The canonical form from a least address on. -/
def wfFrom : Nat → Memory → Bool
  | _, [] => true
  | least, (k, v) :: rest => least ≤ k && k < 65536 && v != unlisted && wfFrom (k + 1) rest

/-- The canonical form. -/
def wf (m : Memory) : Bool := wfFrom 0 m

end Memory

end Sys2Proof.Machine
end

