-- ==== Sys2Proof/Machine/State.lean ====
section
/-! DEFINITION. The state of the machine: the tuple of R41, and what stands behind the bus, which the spec makes a
parameter (R4, R39) and a step function over plain data has to hold. -/

namespace Sys2Proof.Machine

/-- The cause codes of R301. -/
inductive FaultCode where
  /-- Code 1: the fetched opcode's table entry is `INVALID` (R302). -/
  | unimplementedOpcode
  /-- Code 2: a behaviour invoked with a mode it has no rule for (R303); no byte sequence raises it (R98). -/
  | unsupportedAddressingMode
  deriving DecidableEq, Repr

/-- What the fault latch records (R38, R301): code, opcode byte, address of the opcode byte. -/
structure FaultRecord where
  code : FaultCode
  opcode : Byte
  address : Word
  deriving DecidableEq, Repr

/-- What answers at a range of addresses. -/
inductive BusKind where
  /-- Read-only: reads return the contents, writes "are silently ignored" (R62). -/
  | rom
  /-- Nothing: reads return `Config.fill` (R61; log 16), writes have no effect. -/
  | unmapped
  /-- A peripheral: each read returns a free byte (R61, R66), a write is only a transaction. -/
  | device
  deriving DecidableEq, Repr

/-- A range of addresses, ends included, that is not plain read-write memory. -/
structure BusWindow where
  first : Word
  last : Word
  kind : BusKind
  deriving DecidableEq, Repr

/-- The state. -/
@[ext]
structure State where
  /-- Accumulator (R20). -/
  a : Byte
  /-- Index register `X` (R20). -/
  x : Byte
  /-- Index register `Y` (R20). -/
  y : Byte
  /-- Stack pointer (R21). -/
  sp : Byte
  /-- Program counter (R22). -/
  pc : Word
  /-- Carry (R24). -/
  flagC : Bool
  /-- Zero (R25). -/
  flagZ : Bool
  /-- InterruptDisable (R26). -/
  flagI : Bool
  /-- DecimalMode (R27). -/
  flagD : Bool
  /-- Overflow (R30). -/
  flagV : Bool
  /-- Negative (R31). -/
  flagN : Bool
  /-- Ticks still to spend on the last action (R35). -/
  cyclesRemaining : Nat
  /-- NMI request latch (R36). -/
  nmiPending : Bool
  /-- IRQ request latch (R37). -/
  irqPending : Bool
  /-- Sticky fault latch (R38). -/
  fault : Option FaultRecord
  /-- The model's own: the contents behind the bus (R60; log 1). -/
  mem : Memory
  /-- The model's own: the ranges of addresses that are not plain memory; the first that holds an address
  decides (R61, R62; log 2). No step changes it. -/
  busMap : List BusWindow
  /-- The model's own: the bus trace of R8, newest transaction first (R66; log 4). -/
  trace : List BusTxn
  deriving DecidableEq, Repr

/-- Why `exec` stops with a fault. -/
inductive Fault where
  /-- R303: an instruction term that no row of the opcode table is, raised by the meaning invoked with it. Safe:
  no byte sequence decodes to such a term (R98), so no step raises it (log 8). -/
  | unsupportedAddressingMode
  deriving DecidableEq, Repr

/-- Why an instruction or an event is refused. -/
inductive Refusal where
  /-- An instruction without a meaning in this model. Safe. Raised by no arm of `exec`. -/
  | notModelled (mnemonic : String)
  /-- R42: "a `Tick` before the first `Reset` has no defined meaning and a model must refuse it". Raised by
  `Block.present` (Machine/Events.lean) alone. Safe. -/
  | tickBeforeReset
  deriving DecidableEq, Repr

/-- The three outcomes of a step of this machine. -/
abbrev Result := Host.Outcome State Fault Refusal

/-- Right after `Reset` (R43, R330), over a bus on which nothing has been listed. Both bytes of the reset vector
then read 0xFF, so `PC` is 0xFFFF (log 7); the trace holds the two reads of R330. -/
def State.reset : State where
  a := 0x00
  x := 0x00
  y := 0x00
  sp := 0xFD
  pc := 0xFFFF
  flagC := false
  flagZ := false
  flagI := true
  flagD := false
  flagV := false
  flagN := false
  cyclesRemaining := 0
  nmiPending := false
  irqPending := false
  fault := none
  mem := []
  busMap := []
  trace := [.read 0xFFFD 0xFF, .read 0xFFFC 0xFF]

end Sys2Proof.Machine
end

