-- ==== Sys2Proof/Machine/Flags.lean ====
section
/-! DEFINITION. The ALU and flags unit: the register and flag updates, the status byte (R33, R34), the shared helpers
`SetZN`, `AddWithCarry`, `Compare` (R180 to R182) and the one-bit functions (R211). -/

namespace Sys2Proof.Machine

namespace State

/-! ## Single updates -/

def setA (v : Byte) (s : State) : State := { s with a := v }
def setX (v : Byte) (s : State) : State := { s with x := v }
def setY (v : Byte) (s : State) : State := { s with y := v }
def setSP (v : Byte) (s : State) : State := { s with sp := v }
def setPC (v : Word) (s : State) : State := { s with pc := v }
def setC (b : Bool) (s : State) : State := { s with flagC := b }
def setI (b : Bool) (s : State) : State := { s with flagI := b }
def setD (b : Bool) (s : State) : State := { s with flagD := b }
def setV (b : Bool) (s : State) : State := { s with flagV := b }
def setCycles (n : Nat) (s : State) : State := { s with cyclesRemaining := n }

/-- `SetZN(v)` (R180): "Zero = (result == 0); Negative = bit 7 of result". -/
def setZN (v : Byte) (s : State) : State := { s with flagZ := v == 0, flagN := v.getLsbD 7 }

/-! ## The status byte -/

/-- `PByte(b)` (R33). -/
def pByte (b : Bool) (s : State) : Byte :=
  BitVec.ofNat 8 (s.flagN.toNat * 128 + s.flagV.toNat * 64 + 1 * 32 + b.toNat * 16 + s.flagD.toNat * 8 +
    s.flagI.toNat * 4 + s.flagZ.toNat * 2 + s.flagC.toNat)

/-- `SetP(v)` (R34): bits 5 and 4 are ignored. -/
def setP (v : Byte) (s : State) : State :=
  { s with
    flagN := v.getLsbD 7
    flagV := v.getLsbD 6
    flagD := v.getLsbD 3
    flagI := v.getLsbD 2
    flagZ := v.getLsbD 1
    flagC := v.getLsbD 0 }

end State

/-! ## The adder -/

/-- The unbounded sum `t` of R181. -/
def adderSum (a m : Byte) (c : Bool) : Nat := a.toNat + m.toNat + c.toNat

/-- The result byte `t mod 256` of R181. -/
def adderResult (a m : Byte) (c : Bool) : Byte := BitVec.ofNat 8 (adderSum a m c)

/-- The carry out of R181: `t > 255`. -/
def adderCarry (a m : Byte) (c : Bool) : Bool := adderSum a m c > 255

/-- The overflow of R181: `(~(A ^ m) & (A ^ r) & 0x80) != 0`, with the old `A`. -/
def adderOverflow (a m : Byte) (c : Bool) : Bool :=
  (~~~(a ^^^ m) &&& (a ^^^ adderResult a m c) &&& 0x80) != 0

/-- `AddWithCarry(m)` (R181). `D` is not read. -/
def State.addWithCarry (m : Byte) (s : State) : State :=
  let r := adderResult s.a m s.flagC
  (((s.setV (adderOverflow s.a m s.flagC)).setC (adderCarry s.a m s.flagC)).setA r).setZN r

/-- `Compare(r, m)` (R182): `C` from the unsigned comparison, `Z` and `N` from the wrapped difference. -/
def State.compare (r m : Byte) (s : State) : State := (s.setC (m.toNat ≤ r.toNat)).setZN (r - m)

/-- The flags of `BIT` (R191): `Z` from the AND with `A`, `N` and `V` from the memory operand. -/
def State.bitTest (m : Byte) (s : State) : State :=
  { s with flagZ := (s.a &&& m) == 0, flagN := m.getLsbD 7, flagV := m.getLsbD 6 }

/-! ## The one-bit functions: value and old carry to result and new carry (R211) -/

def asl (v : Byte) (_ : Bool) : Byte × Bool := (v <<< 1, v.getLsbD 7)
def lsr (v : Byte) (_ : Bool) : Byte × Bool := (v >>> 1, v.getLsbD 0)
def rol (v : Byte) (c : Bool) : Byte × Bool := ((v <<< 1) + BitVec.ofNat 8 c.toNat, v.getLsbD 7)
def ror (v : Byte) (c : Bool) : Byte × Bool := ((v >>> 1) + BitVec.ofNat 8 (128 * c.toNat), v.getLsbD 0)

/-- Increment (R204): the carry is untouched. -/
def increment (v : Byte) (c : Bool) : Byte × Bool := (v + 1, c)

/-- Decrement (R205): the carry is untouched. -/
def decrement (v : Byte) (c : Bool) : Byte × Bool := (v - 1, c)

/-! ## Results of the undocumented immediate combinations -/

/-- `ARR`'s result (R276): rotate right, the old carry into bit 7. -/
def arrResult (t : Byte) (c : Bool) : Byte := (ror t c).1

/-- `LAX #`'s result (R271) for a value of `MAGIC`. -/
def laxImmResult (magic a m : Byte) : Byte := (a ||| magic) &&& m

/-- `XAA`'s result (R277) for a value of `MAGIC`. -/
def xaaResult (magic a x m : Byte) : Byte := (a ||| magic) &&& x &&& m

end Sys2Proof.Machine
end

