-- ==== Sys2Proof/Machine/Ops.lean ====
section
/-! DEFINITION. The named operations over the bus, the stack, the interrupt sequencer and the external events. -/

namespace Sys2Proof.Machine

/-! ## The bus (R61, R62, R66) -/

/-- What answers at an address: the first window that holds it, or plain memory. -/
def windowKind (map : List BusWindow) (a : Word) : Option BusKind :=
  match map with
  | [] => none
  | w :: rest => if w.first ≤ a ∧ a ≤ w.last then some w.kind else windowKind rest a

namespace State

/-- The byte a read of an address returns now (R61). -/
def peek (s : State) (a : Word) : Byte :=
  match windowKind s.busMap a with
  | none | some .rom => s.mem.read a.toNat
  | some .unmapped => Config.fill
  | some .device => Config.deviceByte s.trace a

/-- `MemRead(a, 1)`: one read transaction (R61, R66). -/
def busRead (a : Word) (s : State) : Byte × State :=
  (s.peek a, { s with trace := .read a (s.peek a) :: s.trace })

/-- `MemWrite(a, 1, v)`: one write transaction; only plain memory keeps the byte (R62, R66). -/
def busWrite (a : Word) (v : Byte) (s : State) : State :=
  { s with
    mem := match windowKind s.busMap a with
      | none => s.mem.write a.toNat v
      | some _ => s.mem
    trace := .write a v :: s.trace }

/-! ## Stack and 16-bit reads (R68, R69) -/

/-- `Push(v)`: write, then decrement (R68). -/
def push (v : Byte) (s : State) : State := (s.busWrite (stackAddr s.sp) v).setSP (s.sp - 1)

/-- `Pull()`: increment, then read (R68). -/
def pull (s : State) : Byte × State := (s.setSP (s.sp + 1)).busRead (stackAddr (s.sp + 1))

/-- Two reads, the low byte first, from the two addresses (R69). -/
def readPair (aLow aHigh : Word) (s : State) : Word × State :=
  let l := s.busRead aLow
  let h := l.2.busRead aHigh
  (w16 h.1 l.1, h.2)

/-- `Read16(a)` (R69). -/
def read16 (a : Word) (s : State) : Word × State := s.readPair a (a + 1)

/-- `Read16ZP(z)` (R69): the high byte's address wraps in the zero page. -/
def read16ZP (z : Byte) (s : State) : Word × State := s.readPair (zext16 z) (zext16 (z + 1))

/-- `Read16PageWrap(a)` (R69): the high byte comes from the same page. -/
def read16PageWrap (a : Word) (s : State) : Word × State := s.readPair a (w16 (hi a) (lo a + 1))

/-! ## Taking an exception and returning from one -/

/-- `InterruptEntry(vector, b)` (R310): what is saved, what changes, where `PC` goes. -/
def interruptEntry (vector : Word) (b : Bool) (s : State) : State :=
  let s1 := ((s.push (hi s.pc)).push (lo s.pc)).push (s.pByte b)
  let t := (s1.setI true).read16 vector
  t.2.setPC t.1

/-- The return of R253 and R315: status, then the address low byte first, nothing added. -/
def interruptReturn (s : State) : State :=
  let p := s.pull
  let l := (p.2.setP p.1).pull
  let h := l.2.pull
  h.2.setPC (w16 h.1 l.1)

/-- Taking an NMI (R307). -/
def takeNmi (s : State) : State :=
  (({ s with nmiPending := false }).interruptEntry vecNmi false).setCycles (intCycles - 1)

/-- Taking an IRQ (R308). -/
def takeIrq (s : State) : State :=
  (({ s with irqPending := false }).interruptEntry vecIrq false).setCycles (intCycles - 1)

/-- `raise UnimplementedOpcode(opcode, PC)` (R128, R301, R302): only the latch changes. -/
def raiseUnimplemented (op : Byte) (s : State) : State :=
  { s with fault := some ⟨.unimplementedOpcode, op, s.pc⟩ }

/-! ## What a tick does (R121, R123, R314) -/

/-- The cases of a `Tick`. -/
inductive Action where
  | halted | idle | nmi | irq | instruction
  deriving DecidableEq, Repr

/-- Which case the next `Tick` is, in the order of R121. -/
def nextAction (s : State) : Action :=
  if s.fault.isSome then .halted
  else if s.cyclesRemaining > 0 then .idle
  else if s.nmiPending then .nmi
  else if s.irqPending && !s.flagI then .irq
  else .instruction

/-- An Idle tick (R122). -/
def idleTick (s : State) : State := s.setCycles (s.cyclesRemaining - 1)

/-! ## The external events (R40) -/

/-- `Reset` (R330): legal in every state. Memory is not touched. -/
def resetEvent (s : State) : State :=
  let s1 : State :=
    { s with
      a := 0, x := 0, y := 0
      sp := spReset
      flagC := false, flagZ := false, flagI := true, flagD := false, flagV := false, flagN := false
      nmiPending := false, irqPending := false
      fault := none
      cyclesRemaining := 0 }
  let t := s1.read16 vecReset
  t.2.setPC t.1

/-- `TriggerNMI` (R36). -/
def triggerNmi (s : State) : State := { s with nmiPending := true }

/-- `TriggerIRQ` (R37). -/
def triggerIrq (s : State) : State := { s with irqPending := true }

/-! ## The observation ports (R40, R132, R324) -/

/-- `pc_out`. -/
def pcOut (s : State) : Word := s.pc

/-- `fault_valid`. -/
def faultValid (s : State) : Bool := s.fault.isSome

/-- The number of a cause code (R301). -/
def faultNumber : FaultCode → BitVec 2
  | .unimplementedOpcode => 1
  | .unsupportedAddressingMode => 2

/-- `fault_code`, `fault_opcode`, `fault_addr`, when `fault_valid`. -/
def faultOut (s : State) : Option (BitVec 2 × Byte × Word) :=
  s.fault.map fun r => (faultNumber r.code, r.opcode, r.address)

/-! ## Putting an instruction's bytes into memory from outside (for `withFetchWord`) -/

/-- The bytes written into the contents at consecutive addresses, with no bus transaction. -/
def placeBytes (bytes : List Byte) (addr : Word) (s : State) : State :=
  match bytes with
  | [] => s
  | v :: rest => ({ s with mem := s.mem.write addr.toNat v }).placeBytes rest (addr + 1)

/-- No window but a read-only one answers at the address: the core reads what the contents hold there. -/
def readsContents (w : BusWindow) (a : Word) : Bool :=
  !(w.first ≤ a && a ≤ w.last) || w.kind == .rom

/-- The state whose next tick is the instruction step of R124 on the given bytes at `PC`: not faulted, no cycles
left, no interrupt due, the bytes in memory and no window hiding them. -/
def readyToRun (bytes : List Byte) (s : State) : State :=
  { s.placeBytes bytes s.pc with
    fault := none
    cyclesRemaining := 0
    nmiPending := false
    irqPending := s.irqPending && s.flagI
    busMap := s.busMap.filter fun w =>
      readsContents w s.pc && readsContents w (s.pc + 1) && readsContents w (s.pc + 2) }

end State

end Sys2Proof.Machine
end

