-- ==== Sys2Proof/Machine/Operands.lean ====
section
/-! DEFINITION. The addressing-mode resolver (41_addressing_modes.md) and the shapes of an instruction's execution: what
happens around its own effect (R124, R126, R127) for an instruction without operand, one of the read class, one
that stores, a read-modify-write one and a branch. A meaning of a family file is one of these shapes with its
effect put in. A term that is no row of the opcode table ends in the fault of R303. -/

namespace Sys2Proof.Machine

/-! ## The resolver -/

/-- What `Resolve` returns (R140): `ea`, `base`, `crossed`. -/
structure Resolved where
  ea : Option Word
  base : Option Word
  crossed : Bool
  deriving DecidableEq, Repr

/-- Do two addresses lie in different pages (R8)? -/
def pageDiffers (a b : Word) : Bool := hi a != hi b

/-- An indexed address (R148, R149, R152): a sum modulo 65536, and whether it left the page. -/
def indexed (base : Word) (index : Byte) : Resolved :=
  ⟨some (base + zext16 index), some base, pageDiffers (base + zext16 index) base⟩

/-- The target of a branch (R154); `PC` is already past the displacement. -/
def branchTarget (d : Byte) (s : State) : Word := s.pc + sext16 d

/-- `Resolve(mode)` (R140 to R154), run after the operand bytes have been read and `PC` is past them: the address
and the pointer reads. The byte of an Immediate operand has been read by the fetch; its address is the one
before `PC` (R143; log 6). -/
def resolve (o : Operand) (s : State) : Resolved × State :=
  match o with
  | .imp | .acc => (⟨none, none, false⟩, s)
  | .imm _ => (⟨some (s.pc - 1), none, false⟩, s)
  | .zp d => (⟨some (zext16 d), none, false⟩, s)
  | .zpx d => (⟨some (zext16 (d + s.x)), none, false⟩, s)
  | .zpy d => (⟨some (zext16 (d + s.y)), none, false⟩, s)
  | .rel d => (⟨some (branchTarget d s), some s.pc, false⟩, s)
  | .abs w => (⟨some w, some w, false⟩, s)
  | .abx w => (indexed w s.x, s)
  | .aby w => (indexed w s.y, s)
  | .ind w =>
    let t := s.read16PageWrap w
    (⟨some t.1, some w, false⟩, t.2)
  | .izx d =>
    let t := s.read16ZP (d + s.x)
    (⟨some t.1, none, false⟩, t.2)
  | .izy d =>
    let t := s.read16ZP d
    (indexed t.1 s.y, t.2)

/-- The operand byte: `MemRead(ea, 1)`, which for an Immediate operand is the byte the fetch read (R143; log 6). -/
def readOperand (o : Operand) (ea : Word) (s : State) : Byte × State :=
  match o with
  | .imm d => (d, s)
  | _ => s.busRead ea

/-! ## Cycle accounting -/

/-- `cyclesRemaining <- baseCycles + extra - 1` (R126), with the page-cross cycle of R153 where the row's penalty
is `cross`, and `taken` the cycles a branch adds (R220). -/
def State.charge (f : Form) (crossed : Bool) (taken : Nat) (s : State) : State :=
  s.setCycles (f.cycles + ((f.penalty == .cross && crossed).toNat + taken) - 1)

/-! ## The shapes -/

/-- An instruction with no memory operand. -/
def runImplied (i : Instr) (effect : State → State) (s : State) : Result :=
  match i.form with
  | none => .fault .unsupportedAddressingMode
  | some f => .next ((effect s).charge f false 0)

/-- An instruction whose operand has an address: resolve, then the effect on what `Resolve` returned (R124). -/
def runAddressed (i : Instr) (effect : Word → Resolved → State → State) (s : State) : Result :=
  match i.form with
  | none => .fault .unsupportedAddressingMode
  | some f =>
    let r := resolve i.operand s
    match r.1.ea with
    | none => .fault .unsupportedAddressingMode
    | some ea => .next ((effect ea r.1 r.2).charge f r.1.crossed 0)

/-- A read-class instruction (R8): one read of the operand, then the effect of the byte. -/
def runRead (i : Instr) (effect : Byte → State → State) (s : State) : Result :=
  runAddressed i (fun ea _ s1 =>
    let m := readOperand i.operand ea s1
    effect m.1 m.2) s

/-- A store-class instruction (R8): one write of a byte to the address, which is not read. -/
def runStore (i : Instr) (value : State → Byte) (s : State) : Result :=
  runAddressed i (fun ea _ s1 => s1.busWrite ea (value s1)) s

/-- `RMW(ea, f)` (R210): one read, one write of the new value to the same address; the function's carry is
kept in `C`. -/
def readModifyWrite (f : Byte → Bool → Byte × Bool) (ea : Word) (s : State) : Byte × State :=
  let m := s.busRead ea
  let r := f m.1 m.2.flagC
  (r.1, (m.2.setC r.2).busWrite ea r.1)

/-- A read-modify-write instruction: `RMW`, then the effect of the new value. -/
def runModify (i : Instr) (f : Byte → Bool → Byte × Bool) (effect : Byte → State → State) (s : State) : Result :=
  runAddressed i (fun ea _ s1 =>
    let r := readModifyWrite f ea s1
    effect r.1 r.2) s

/-- A shift or rotate (R200 to R203): on `A` in Accumulator mode, else on memory. -/
def runShift (i : Instr) (f : Byte → Bool → Byte × Bool) (s : State) : Result :=
  match i.operand with
  | .acc => runImplied i (fun s1 =>
      let r := f s1.a s1.flagC
      ((s1.setC r.2).setA r.1).setZN r.1) s
  | _ => runModify i f State.setZN s

/-- `Branch(cond)` (R220). -/
def runBranch (i : Instr) (d : Byte) (cond : Bool) (s : State) : Result :=
  match i.form with
  | none => .fault .unsupportedAddressingMode
  | some f =>
    let ea := branchTarget d s
    if cond then .next ((s.setPC ea).charge f false (1 + (pageDiffers ea s.pc).toNat))
    else .next (s.charge f false 0)

/-- `StoreHi(v0)` (R279). -/
def storeHigh (v0 : Byte) (base ea : Word) (crossed : Bool) (s : State) : State :=
  let v := v0 &&& (hi base + 1)
  let addr := if crossed then w16 (hi ea &&& v) (lo ea) else ea
  s.busWrite addr v

/-- An instruction of the group of R279: a change of registers, then `StoreHi` of a register value. -/
def runStoreHigh (i : Instr) (before : State → State) (value : State → Byte) (s : State) : Result :=
  match i.form, resolve i.operand s with
  | some f, (⟨some ea, some base, crossed⟩, s1) =>
    let s2 := before s1
    .next ((storeHigh (value s2) base ea crossed s2).charge f crossed 0)
  | _, _ => .fault .unsupportedAddressingMode

end Sys2Proof.Machine
end

