-- ==== Sys2Proof/Machine/Arithmetic.lean ====
section
/-! DEFINITION. Logic, arithmetic, compare and bit-test instructions (43_logic_arith_compare.md). -/

namespace Sys2Proof.Machine

/-- `ORA` (R183). -/
def execOra (o : Operand) (s : State) : Result :=
  runRead (.ora o) (fun m s1 => (s1.setA (s1.a ||| m)).setZN (s1.a ||| m)) s

/-- `AND` (R184). -/
def execAnd (o : Operand) (s : State) : Result :=
  runRead (.and o) (fun m s1 => (s1.setA (s1.a &&& m)).setZN (s1.a &&& m)) s

/-- `EOR` (R185). -/
def execEor (o : Operand) (s : State) : Result :=
  runRead (.eor o) (fun m s1 => (s1.setA (s1.a ^^^ m)).setZN (s1.a ^^^ m)) s

/-- `ADC` (R186). -/
def execAdc (o : Operand) (s : State) : Result := runRead (.adc o) State.addWithCarry s

/-- `SBC` (R187): the adder with the complemented operand. -/
def execSbc (o : Operand) (s : State) : Result := runRead (.sbc o) (fun m s1 => s1.addWithCarry (m ^^^ 0xFF)) s

/-- `CMP` (R188). -/
def execCmp (o : Operand) (s : State) : Result := runRead (.cmp o) (fun m s1 => s1.compare s1.a m) s

/-- `CPX` (R189). -/
def execCpx (o : Operand) (s : State) : Result := runRead (.cpx o) (fun m s1 => s1.compare s1.x m) s

/-- `CPY` (R190). -/
def execCpy (o : Operand) (s : State) : Result := runRead (.cpy o) (fun m s1 => s1.compare s1.y m) s

/-- `BIT` (R191). -/
def execBit (o : Operand) (s : State) : Result := runRead (.bit o) State.bitTest s

end Sys2Proof.Machine
end

