-- ==== Sys2Proof/Machine/Branch.lean ====
section
/-! DEFINITION. Branch, jump and subroutine instructions (45_branch_jump_subroutine.md). -/

namespace Sys2Proof.Machine

/-- `BPL` (R221). -/
def execBpl (d : Byte) (s : State) : Result := runBranch (.bpl d) d (!s.flagN) s

/-- `BMI` (R222). -/
def execBmi (d : Byte) (s : State) : Result := runBranch (.bmi d) d s.flagN s

/-- `BVC` (R223). -/
def execBvc (d : Byte) (s : State) : Result := runBranch (.bvc d) d (!s.flagV) s

/-- `BVS` (R224). -/
def execBvs (d : Byte) (s : State) : Result := runBranch (.bvs d) d s.flagV s

/-- `BCC` (R225). -/
def execBcc (d : Byte) (s : State) : Result := runBranch (.bcc d) d (!s.flagC) s

/-- `BCS` (R226). -/
def execBcs (d : Byte) (s : State) : Result := runBranch (.bcs d) d s.flagC s

/-- `BNE` (R227). -/
def execBne (d : Byte) (s : State) : Result := runBranch (.bne d) d (!s.flagZ) s

/-- `BEQ` (R228). -/
def execBeq (d : Byte) (s : State) : Result := runBranch (.beq d) d s.flagZ s

/-- `JMP` (R229). -/
def execJmp (o : Operand) (s : State) : Result := runAddressed (.jmp o) (fun ea _ s1 => s1.setPC ea) s

/-- `JSR` (R230): the address of its own last byte is pushed, high byte first. -/
def execJsr (w : Word) (s : State) : Result :=
  runAddressed (.jsr w) (fun ea _ s1 =>
    let r := s1.pc - 1
    ((s1.push (hi r)).push (lo r)).setPC ea) s

/-- `RTS` (R231): the pulled address plus one. -/
def execRts (s : State) : Result :=
  runImplied .rts (fun s1 =>
    let l := s1.pull
    let h := l.2.pull
    h.2.setPC (w16 h.1 l.1 + 1)) s

end Sys2Proof.Machine
end

