-- ==== Sys2Proof/Machine/LoadStore.lean ====
section
/-! DEFINITION. Load, store and register-transfer instructions (42_load_store_transfer.md). -/

namespace Sys2Proof.Machine

/-- `LDA` (R160). -/
def execLda (o : Operand) (s : State) : Result := runRead (.lda o) (fun m s1 => (s1.setA m).setZN m) s

/-- `LDX` (R161). -/
def execLdx (o : Operand) (s : State) : Result := runRead (.ldx o) (fun m s1 => (s1.setX m).setZN m) s

/-- `LDY` (R162). -/
def execLdy (o : Operand) (s : State) : Result := runRead (.ldy o) (fun m s1 => (s1.setY m).setZN m) s

/-- `STA` (R163). -/
def execSta (o : Operand) (s : State) : Result := runStore (.sta o) State.a s

/-- `STX` (R164). -/
def execStx (o : Operand) (s : State) : Result := runStore (.stx o) State.x s

/-- `STY` (R165). -/
def execSty (o : Operand) (s : State) : Result := runStore (.sty o) State.y s

/-- `TAX` (R166). -/
def execTax (s : State) : Result := runImplied .tax (fun s1 => (s1.setX s1.a).setZN s1.a) s

/-- `TAY` (R167). -/
def execTay (s : State) : Result := runImplied .tay (fun s1 => (s1.setY s1.a).setZN s1.a) s

/-- `TXA` (R168). -/
def execTxa (s : State) : Result := runImplied .txa (fun s1 => (s1.setA s1.x).setZN s1.x) s

/-- `TYA` (R169). -/
def execTya (s : State) : Result := runImplied .tya (fun s1 => (s1.setA s1.y).setZN s1.y) s

/-- `TSX` (R170). -/
def execTsx (s : State) : Result := runImplied .tsx (fun s1 => (s1.setX s1.sp).setZN s1.sp) s

/-- `TXS` (R171): no flag changes. -/
def execTxs (s : State) : Result := runImplied .txs (fun s1 => s1.setSP s1.x) s

end Sys2Proof.Machine
end

