-- ==== Sys2Proof/Machine/Shift.lean ====
section
/-! DEFINITION. Shift, rotate, increment and decrement instructions (44_shift_rotate_incdec.md). -/

namespace Sys2Proof.Machine

/-- `ASL` (R200). -/
def execAsl (o : Operand) (s : State) : Result := runShift (.asl o) asl s

/-- `LSR` (R201). -/
def execLsr (o : Operand) (s : State) : Result := runShift (.lsr o) lsr s

/-- `ROL` (R202). -/
def execRol (o : Operand) (s : State) : Result := runShift (.rol o) rol s

/-- `ROR` (R203). -/
def execRor (o : Operand) (s : State) : Result := runShift (.ror o) ror s

/-- `INC` (R204). -/
def execInc (o : Operand) (s : State) : Result := runModify (.inc o) increment State.setZN s

/-- `DEC` (R205). -/
def execDec (o : Operand) (s : State) : Result := runModify (.dec o) decrement State.setZN s

/-- `INX` (R206). -/
def execInx (s : State) : Result := runImplied .inx (fun s1 => (s1.setX (s1.x + 1)).setZN (s1.x + 1)) s

/-- `INY` (R207). -/
def execIny (s : State) : Result := runImplied .iny (fun s1 => (s1.setY (s1.y + 1)).setZN (s1.y + 1)) s

/-- `DEX` (R208). -/
def execDex (s : State) : Result := runImplied .dex (fun s1 => (s1.setX (s1.x - 1)).setZN (s1.x - 1)) s

/-- `DEY` (R209). -/
def execDey (s : State) : Result := runImplied .dey (fun s1 => (s1.setY (s1.y - 1)).setZN (s1.y - 1)) s

end Sys2Proof.Machine
end

