-- ==== Sys2Proof/Machine/System.lean ====
section
/-! DEFINITION. Stack, flag and system instructions (46_stack_flag_system.md). -/

namespace Sys2Proof.Machine

/-- `PHA` (R240). -/
def execPha (s : State) : Result := runImplied .pha (fun s1 => s1.push s1.a) s

/-- `PHP` (R241): bits 5 and 4 of the pushed byte are set. -/
def execPhp (s : State) : Result := runImplied .php (fun s1 => s1.push (s1.pByte true)) s

/-- `PLA` (R242). -/
def execPla (s : State) : Result :=
  runImplied .pla (fun s1 =>
    let p := s1.pull
    (p.2.setA p.1).setZN p.1) s

/-- `PLP` (R243). -/
def execPlp (s : State) : Result :=
  runImplied .plp (fun s1 =>
    let p := s1.pull
    p.2.setP p.1) s

/-- `CLC` (R244). -/
def execClc (s : State) : Result := runImplied .clc (State.setC false) s

/-- `SEC` (R245). -/
def execSec (s : State) : Result := runImplied .sec (State.setC true) s

/-- `CLI` (R246). -/
def execCli (s : State) : Result := runImplied .cli (State.setI false) s

/-- `SEI` (R247). -/
def execSei (s : State) : Result := runImplied .sei (State.setI true) s

/-- `CLV` (R248). -/
def execClv (s : State) : Result := runImplied .clv (State.setV false) s

/-- `CLD` (R249). -/
def execCld (s : State) : Result := runImplied .cld (State.setD false) s

/-- `SED` (R250). -/
def execSed (s : State) : Result := runImplied .sed (State.setD true) s

/-- `NOP` (R251). -/
def execNop (s : State) : Result := runImplied .nop id s

/-- `BRK` (R252): the padding byte is passed over and not read, then the entry of R310 with bit 4 set. -/
def execBrk (s : State) : Result :=
  runImplied .brk (fun s1 => (s1.setPC (s1.pc + 1)).interruptEntry vecIrq true) s

/-- `RTI` (R253, R315). -/
def execRti (s : State) : Result := runImplied .rti State.interruptReturn s

end Sys2Proof.Machine
end

