-- ==== Sys2Proof/Machine/Undocumented.lean ====
section
/-! DEFINITION. The undocumented opcodes and the `INVALID` sentinel (47_undocumented.md). -/

namespace Sys2Proof.Machine

/-! ## Read-modify-write combinations -/

/-- `SLO` (R265). -/
def execSlo (o : Operand) (s : State) : Result :=
  runModify (.slo o) asl (fun r s1 => (s1.setA (s1.a ||| r)).setZN (s1.a ||| r)) s

/-- `RLA` (R266). -/
def execRla (o : Operand) (s : State) : Result :=
  runModify (.rla o) rol (fun r s1 => (s1.setA (s1.a &&& r)).setZN (s1.a &&& r)) s

/-- `SRE` (R267). -/
def execSre (o : Operand) (s : State) : Result :=
  runModify (.sre o) lsr (fun r s1 => (s1.setA (s1.a ^^^ r)).setZN (s1.a ^^^ r)) s

/-- `RRA` (R268): the addition uses the carry the rotate produced. -/
def execRra (o : Operand) (s : State) : Result := runModify (.rra o) ror State.addWithCarry s

/-- `DCP` (R272). -/
def execDcp (o : Operand) (s : State) : Result := runModify (.dcp o) decrement (fun r s1 => s1.compare s1.a r) s

/-- `ISC` (R273). -/
def execIsc (o : Operand) (s : State) : Result :=
  runModify (.isc o) increment (fun r s1 => s1.addWithCarry (r ^^^ 0xFF)) s

/-! ## Load and store combinations -/

/-- `SAX` (R269). -/
def execSax (o : Operand) (s : State) : Result := runStore (.sax o) (fun s1 => s1.a &&& s1.x) s

/-- `LAX`, the memory forms (R270). -/
def execLax (o : Operand) (s : State) : Result := runRead (.lax o) (fun m s1 => ((s1.setA m).setX m).setZN m) s

/-- `LAX #` (R271). -/
def execLaxImm (d : Byte) (s : State) : Result :=
  runRead (.laxImm d) (fun m s1 =>
    let t := laxImmResult Config.magic s1.a m
    ((s1.setA t).setX t).setZN t) s

/-- `LAS` (R283). -/
def execLas (w : Word) (s : State) : Result :=
  runRead (.las w) (fun m s1 =>
    let t := m &&& s1.sp
    (((s1.setA t).setX t).setSP t).setZN t) s

/-! ## Immediate combinations -/

/-- `ANC` (R274): `C` is the `N` of the result. -/
def execAnc (opcode d : Byte) (s : State) : Result :=
  runRead (.anc opcode d) (fun m s1 =>
    let t := s1.a &&& m
    ((s1.setA t).setZN t).setC (t.getLsbD 7)) s

/-- `ALR` (R275). -/
def execAlr (d : Byte) (s : State) : Result :=
  runRead (.alr d) (fun m s1 =>
    let r := lsr (s1.a &&& m) s1.flagC
    ((s1.setC r.2).setA r.1).setZN r.1) s

/-- `ARR` (R276): `C` and `V` from bits 6 and 5 of the result. -/
def execArr (d : Byte) (s : State) : Result :=
  runRead (.arr d) (fun m s1 =>
    let r := arrResult (s1.a &&& m) s1.flagC
    (((s1.setA r).setZN r).setC (r.getLsbD 6)).setV (r.getLsbD 6 ^^ r.getLsbD 5)) s

/-- `XAA` (R277). -/
def execXaa (d : Byte) (s : State) : Result :=
  runRead (.xaa d) (fun m s1 =>
    let t := xaaResult Config.magic s1.a s1.x m
    (s1.setA t).setZN t) s

/-- `AXS` (R278). -/
def execAxs (d : Byte) (s : State) : Result :=
  runRead (.axs d) (fun m s1 =>
    let t := s1.a &&& s1.x
    (s1.compare t m).setX (t - m)) s

/-! ## The "store AND high-byte-plus-one" group (R279; log 11) -/

/-- `AHX` (R279). -/
def execAhx (o : Operand) (s : State) : Result := runStoreHigh (.ahx o) id (fun s1 => s1.a &&& s1.x) s

/-- `SHY` (R280). -/
def execShy (w : Word) (s : State) : Result := runStoreHigh (.shy w) id State.y s

/-- `SHX` (R281). -/
def execShx (w : Word) (s : State) : Result := runStoreHigh (.shx w) id State.x s

/-- `TAS` (R282): the new `SP` is what is stored. -/
def execTas (w : Word) (s : State) : Result :=
  runStoreHigh (.tas w) (fun s1 => s1.setSP (s1.a &&& s1.x)) State.sp s

/-! ## Undocumented forms of documented mnemonics -/

/-- The undocumented `NOP`s (R284): with an operand, the byte is read and discarded. -/
def execNopU (opcode : Byte) (o : Operand) (s : State) : Result :=
  match o with
  | .imp => runImplied (.nopU opcode o) id s
  | _ => runRead (.nopU opcode o) (fun _ s1 => s1) s

/-- `SBC #`, 0xEB (R285). -/
def execSbcU (d : Byte) (s : State) : Result :=
  runRead (.sbcU d) (fun m s1 => s1.addWithCarry (m ^^^ 0xFF)) s

/-! ## The sentinel -/

/-- `INVALID` (R286): the fault latch is set and nothing else changes; no cycles are charged (R128). -/
def execInvalid (opcode : Byte) (s : State) : Result :=
  match (Instr.invalid opcode).form with
  | none => .fault .unsupportedAddressingMode
  | some _ => .next (s.raiseUnimplemented opcode)

end Sys2Proof.Machine
end

