-- ==== Sys2Proof/Machine/Fetch.lean ====
section
/-! DEFINITION. Fetching an instruction: the opcode byte, then the operand bytes of its format, in ascending address
order (R64, R124). -/

namespace Sys2Proof.Machine

/-- The instruction at `PC`, and the state its behaviour starts from: `PC` past the operand bytes (R22), or still
at the opcode for `INVALID` (R128). -/
def fetch (s : State) : Instr × State :=
  let op := s.busRead s.pc
  match (opcodeRow op.1).shape with
  | .invalid => (.invalid op.1, op.2)
  | .f1 i => (i, op.2.setPC (s.pc + 1))
  | .f2 make =>
    let b := op.2.busRead (s.pc + 1)
    (make b.1, b.2.setPC (s.pc + 2))
  | .f3 make =>
    let w := op.2.readPair (s.pc + 1) (s.pc + 2)
    (make w.1, w.2.setPC (s.pc + 3))

end Sys2Proof.Machine
end

