-- ==== Sys2Proof/Machine/Step.lean ====
section
/-! DEFINITION. One step is one `Tick` (R121; log 12). -/

namespace Sys2Proof.Machine

/-- The `Tick` event (R121): nothing while faulted (R129), an Idle tick (R122), an NMI or IRQ entry (R307, R308), or
the instruction step (R124). -/
def step (s : State) : Host.Outcome State Fault Refusal :=
  match s.nextAction with
  | .halted => .next s
  | .idle => .next s.idleTick
  | .nmi => .next s.takeNmi
  | .irq => .next s.takeIrq
  | .instruction => exec (fetch s).1 (fetch s).2

/-- The state with a table word's instruction at `PC`, made ready so that the very next step runs it (log 7). -/
def State.withFetchWord (s : State) (nbits w : Nat) : State := s.readyToRun (tableBytes nbits w)

end Sys2Proof.Machine
end

