-- ==== Sys2Proof/Machine/Events.lean ====
section
/-! DEFINITION. The block as its environment sees it: the four external events (R40, R120), from power-on (R42, R332) on. -/

namespace Sys2Proof.Machine

/-- The external events of R40. -/
inductive Event where
  | reset | tick | triggerNmi | triggerIrq
  deriving DecidableEq, Repr

/-- The block: before its first `Reset`, with an unspecified state that may be any (R42; log 10), or after it. -/
inductive Block where
  | beforeReset (s : State)
  | running (s : State)
  deriving DecidableEq, Repr

/-- A step's outcome as one of the block. -/
def Block.ofResult : Result → Host.Outcome Block Fault Refusal
  | .next s => .next (.running s)
  | .fault r => .fault r
  | .refused r => .refused r

/-- One event (R40, R120). A `Tick` before the first `Reset` is refused (R42). -/
def Block.present (e : Event) (b : Block) : Host.Outcome Block Fault Refusal :=
  match e, b with
  | .reset, .beforeReset s | .reset, .running s => .next (.running s.resetEvent)
  | .triggerNmi, .beforeReset s => .next (.beforeReset s.triggerNmi)
  | .triggerNmi, .running s => .next (.running s.triggerNmi)
  | .triggerIrq, .beforeReset s => .next (.beforeReset s.triggerIrq)
  | .triggerIrq, .running s => .next (.running s.triggerIrq)
  | .tick, .beforeReset _ => .refused .tickBeforeReset
  | .tick, .running s => Block.ofResult (step s)

/-- The inputs `rst`, `nmi_set`, `irq_set`, `clk` presented at the same tick (R40). -/
structure Inputs where
  rst : Bool
  nmiSet : Bool
  irqSet : Bool
  clk : Bool
  deriving DecidableEq, Repr

/-- The events of the inputs in the order R40 gives them: `Reset`, then the triggers, then `Tick`. -/
def Inputs.events (p : Inputs) : List Event :=
  (if p.rst then [.reset] else []) ++ (if p.nmiSet then [.triggerNmi] else []) ++
  (if p.irqSet then [.triggerIrq] else []) ++ (if p.clk then [.tick] else [])

/-- Several events, one after the other (they are atomic and totally ordered, R40). -/
def Block.presentAll : List Event → Block → Host.Outcome Block Fault Refusal
  | [], b => .next b
  | e :: rest, b =>
    match b.present e with
    | .next b1 => b1.presentAll rest
    | .fault r => .fault r
    | .refused r => .refused r

end Sys2Proof.Machine
end

