-- ==== Sys2Proof/Safety.lean ====
section
/-! DEFINITION. The terms in which claims are made: the invariant of the machine, and which instructions the spec
lets write which piece of state (R24 to R32). -/

namespace Sys2Proof.Machine

/-- The latch of R38 records only what R302 lets it: `UnimplementedOpcode` of one of the twelve bytes of R97, at
the address `PC` still holds, with no cycles charged (R128). -/
def State.faultOk (s : State) : Bool :=
  match s.fault with
  | none => true
  | some r =>
    r.code == .unimplementedOpcode && invalidOpcodes.contains r.opcode && r.address == s.pc &&
    s.cyclesRemaining == 0

/-- The invariant every step keeps: canonical memory, at most 7 cycles left (R35, R345), a fault latch as R302
and R128 leave it. -/
structure State.Inv (s : State) : Prop where
  mem_wf : s.mem.wf = true
  cycles_le : s.cyclesRemaining ≤ 7
  fault_ok : s.faultOk = true

/-- A run that has not gone wrong (R129): the fault latch is clear. -/
abbrev State.Running (s : State) : Prop := s.fault = none

/-- The next tick is the instruction step of R124: not faulted, no cycles left, no interrupt due (R121). -/
structure State.AtInstruction (s : State) : Prop where
  running : s.fault = none
  no_cycles : s.cyclesRemaining = 0
  no_nmi : s.nmiPending = false
  no_irq : s.irqPending = false ∨ s.flagI = true

/-- Plain read-write memory answers at the address. -/
abbrev State.plain (s : State) (a : Word) : Prop := windowKind s.busMap a = none

/-- The three bytes the next three bus reads from `PC` on return. -/
def State.codeBytes (s : State) : List Byte :=
  let r0 := s.busRead s.pc
  let r1 := r0.2.busRead (s.pc + 1)
  let r2 := r1.2.busRead (s.pc + 2)
  [r0.1, r1.1, r2.1]

/-- The trace of reading the bytes at consecutive addresses, newest first, over an older trace. -/
def readTrace : Word → List Byte → List BusTxn → List BusTxn
  | _, [], older => older
  | a, v :: rest, older => readTrace (a + 1) rest (.read a v :: older)

/-- The address an operand form resolves to, with the state after the pointer reads (R140). -/
def State.addressOf (o : Operand) (s : State) : Option (Word × State) :=
  (resolve o s).1.ea.map fun ea => (ea, (resolve o s).2)

/-- The byte a read-class instruction reads through an operand form, with the state after that read. -/
def State.operandOf (o : Operand) (s : State) : Option (Byte × State) :=
  (resolve o s).1.ea.map fun ea => readOperand o ea (resolve o s).2

/-- `MemRead(ea, 1)` through the operand form gives `m` and changes nothing but the trace, to `tr`. -/
abbrev State.Reads (s : State) (o : Operand) (m : Byte) (tr : List BusTxn) : Prop :=
  s.operandOf o = some (m, { s with trace := tr })

/-- The operand form resolves to `ea`, and that changes nothing but the trace, to `tr`. -/
abbrev State.ResolvesTo (s : State) (o : Operand) (ea : Word) (tr : List BusTxn) : Prop :=
  s.addressOf o = some (ea, { s with trace := tr })

/-- The contents after `MemWrite(ea, 1, v)`: the byte is kept where plain memory answers (R62). -/
def State.stored (s : State) (ea : Word) (v : Byte) : Memory :=
  if windowKind s.busMap ea = none then s.mem.write ea.toNat v else s.mem

/-- The register value a high-byte store combines with the page (R279 to R282). -/
def highStoreValue (s : State) : Instr → Option Byte
  | .ahx _ | .tas _ => some (s.a &&& s.x)
  | .shx _ => some s.x
  | .shy _ => some s.y
  | _ => none

/-- The address `StoreHi(v0)` stores at (R279): `ea`, or, when the index crossed a page, `ea` with its page ANDed with
the stored value. -/
def State.highStoreAddress (o : Operand) (v0 : Byte) (s : State) : Option Word :=
  match (resolve o s).1 with
  | ⟨some ea, some base, crossed⟩ =>
    some (if crossed then w16 (hi ea &&& (v0 &&& (hi base + 1))) (lo ea) else ea)
  | _ => none

/-- `cyclesRemaining` after a non-branch instruction: base cycles, one more for a page cross where the row's
penalty says so, less the Dispatch tick itself (R126, R153). -/
def cyclesAfter (i : Instr) (s : State) : Nat :=
  match i.form with
  | none => s.cyclesRemaining
  | some f => f.cycles + (if f.penalty = .cross ∧ (resolve i.operand s).1.crossed = true then 1 else 0) - 1

/-- The instruction has exactly these modes, with these opcodes, base cycles and penalties. -/
def FormsAre (make : Operand → Instr) (forms : List (Mode × Form)) : Prop :=
  ∀ o, (make o).form = forms.lookup o.mode

/-- The state an entry of R310 leaves, written out: three bytes pushed (`PC` high, `PC` low, status) with `ret` as
the saved address, `I` set, `PC` from the vector, low byte read first. -/
def State.afterEntry (s : State) (vector ret : Word) (b : Bool) : State :=
  let w := ((s.busWrite (0x0100 + zext16 s.sp) (hi ret)).busWrite (0x0100 + zext16 (s.sp - 1)) (lo ret)).busWrite
    (0x0100 + zext16 (s.sp - 2)) (s.pByte b)
  let l := w.peek vector
  let h := ({ w with trace := .read vector l :: w.trace }).peek (vector + 1)
  { w with
    sp := s.sp - 3
    flagI := true
    pc := w16 h l
    trace := .read (vector + 1) h :: .read vector l :: w.trace }

/-- The byte of the last bus transaction, when that is a write. -/
def State.lastWritten (s : State) : Option Byte :=
  match s.trace with
  | .write _ v :: _ => some v
  | _ => none

/-- The result byte an instruction's rule hands to `SetZN`, from the states before and after: a register it wrote, the
byte a read-modify-write wrote, or the difference a compare does not store (R182). `none` for `BIT`, `PLP` and `RTI`,
whose `Z` and `N` are of no one byte (R25, R31), and for what writes neither. -/
def resultByte (i : Instr) (before after : State) : Option Byte :=
  match i with
  | .lda _ | .txa | .tya | .ora _ | .and _ | .eor _ | .adc _ | .sbc _ | .pla
  | .slo _ | .rla _ | .sre _ | .rra _ | .isc _ | .lax _ | .laxImm _ | .las _ | .anc _ _ | .alr _ | .arr _ | .xaa _
  | .sbcU _ => some after.a
  | .ldx _ | .tax | .tsx | .inx | .dex | .axs _ => some after.x
  | .ldy _ | .tay | .iny | .dey => some after.y
  | .cmp o => (before.operandOf o).map fun m => before.a - m.1
  | .cpx o => (before.operandOf o).map fun m => before.x - m.1
  | .cpy o => (before.operandOf o).map fun m => before.y - m.1
  | .asl o | .lsr o | .rol o | .ror o => if o = .acc then some after.a else after.lastWritten
  | .inc _ | .dec _ => after.lastWritten
  | .dcp _ => after.lastWritten.map fun r => before.a - r
  | _ => none

/-- Plain memory answers on the whole stack page. -/
abbrev State.PlainStack (s : State) : Prop := ∀ b : Byte, s.plain (0x0100 + zext16 b)

/-- The read class in the modes that report a page cross (R153). -/
def crossReadClass : Instr → Bool
  | .lda o | .ldx o | .ldy o | .ora o | .and o | .eor o | .adc o | .sbc o | .cmp o | .lax o =>
    o.mode ∈ [.abx, .aby, .izy]
  | .nopU _ o => o.mode == .abx
  | .las _ => true
  | _ => false

/-! ## What the spec lets an instruction write -/

/-- "Written by" of `C` (R24). -/
def writesC : Instr → Bool
  | .adc _ | .sbc _ | .cmp _ | .cpx _ | .cpy _ | .asl _ | .lsr _ | .rol _ | .ror _ | .clc | .sec | .plp | .rti
  | .slo _ | .rla _ | .sre _ | .rra _ | .dcp _ | .isc _ | .anc _ _ | .alr _ | .arr _ | .axs _ | .sbcU _ => true
  | _ => false

/-- "Written by" of `Z` (R25), which is that of `N` too (R31). -/
def writesZN : Instr → Bool
  | .lda _ | .ldx _ | .ldy _ | .tax | .tay | .txa | .tya | .tsx | .ora _ | .and _ | .eor _ | .adc _ | .sbc _
  | .cmp _ | .cpx _ | .cpy _ | .asl _ | .lsr _ | .rol _ | .ror _ | .inc _ | .dec _ | .inx | .iny | .dex | .dey
  | .pla | .slo _ | .rla _ | .sre _ | .rra _ | .lax _ | .laxImm _ | .dcp _ | .isc _ | .anc _ _ | .alr _ | .arr _
  | .xaa _ | .axs _ | .las _ | .bit _ | .plp | .rti | .sbcU _ => true
  | _ => false

/-- "Written by" of `I` (R26). -/
def writesI : Instr → Bool
  | .sei | .cli | .plp | .rti | .brk => true
  | _ => false

/-- "Written by" of `D` (R27). -/
def writesD : Instr → Bool
  | .sed | .cld | .plp | .rti => true
  | _ => false

/-- "Written by" of `V` (R30). -/
def writesV : Instr → Bool
  | .adc _ | .sbc _ | .bit _ | .clv | .plp | .rti | .rra _ | .isc _ | .arr _ | .sbcU _ => true
  | _ => false

/-- The instructions whose rules write `A`; a shift only in Accumulator mode (R200 to R203). -/
def writesA : Instr → Bool
  | .lda _ | .txa | .tya | .ora _ | .and _ | .eor _ | .adc _ | .sbc _ | .pla
  | .slo _ | .rla _ | .sre _ | .rra _ | .isc _ | .lax _ | .laxImm _ | .las _ | .anc _ _ | .alr _ | .arr _ | .xaa _
  | .sbcU _ => true
  | .asl o | .lsr o | .rol o | .ror o => o.mode == .acc
  | _ => false

/-- The instructions whose rules write `X`. -/
def writesX : Instr → Bool
  | .ldx _ | .tax | .tsx | .inx | .dex | .lax _ | .laxImm _ | .las _ | .axs _ => true
  | _ => false

/-- The instructions whose rules write `Y`. -/
def writesY : Instr → Bool
  | .ldy _ | .tay | .iny | .dey => true
  | _ => false

/-- The instructions whose rules write `SP` (R21). -/
def writesSP : Instr → Bool
  | .txs | .pha | .php | .pla | .plp | .jsr _ | .rts | .brk | .rti | .tas _ | .las _ => true
  | _ => false

/-- The instructions whose rules write memory: the store class, the read-modify-write class (a shift not in
Accumulator mode) and those that push. -/
def writesMem : Instr → Bool
  | .sta _ | .stx _ | .sty _ | .sax _ | .ahx _ | .shy _ | .shx _ | .tas _
  | .inc _ | .dec _ | .slo _ | .rla _ | .sre _ | .rra _ | .dcp _ | .isc _
  | .pha | .php | .jsr _ | .brk => true
  | .asl o | .lsr o | .rol o | .ror o => o.mode != .acc
  | _ => false

/-- The instructions that transfer control: `PC` is not left at the next instruction (R233). -/
def transfersControl : Instr → Bool
  | .bpl _ | .bmi _ | .bvc _ | .bvs _ | .bcc _ | .bcs _ | .bne _ | .beq _
  | .jmp _ | .jsr _ | .rts | .brk | .rti => true
  | _ => false

end Sys2Proof.Machine
end

