-- ==== Sys2Proof/Certificates/Slice0/Obligations.lean ====
section
/-! DEFINITION. The statements. In a statement about `exec`, the state is the one after the fetch: `PC` is past the
operand bytes (R22, R124). A next state written `{ s with … }` says at once what the instruction does and its whole
frame: every field not named is as it was. -/

open Sys2Proof Sys2Proof.Machine

/-! ## Reset and events -/

/-- R330, R43: every register, flag, latch and the counter at its reset value, `PC` from the vector bytes, the low
one read first; exactly those two reads; memory untouched. The trace field is the model's record of R8's bus trace
(log 4). -/
def Obligations.ResetEventGivesResetValues : Prop :=
  ∀ s : State, ∃ l h : Byte,
    l = s.peek 0xFFFC ∧
    h = ({ s with trace := .read 0xFFFC l :: s.trace }).peek 0xFFFD ∧
    s.resetEvent =
      { s with
        a := 0, x := 0, y := 0, sp := 0xFD, pc := w16 h l
        flagC := false, flagZ := false, flagI := true, flagD := false, flagV := false, flagN := false
        cyclesRemaining := 0, nmiPending := false, irqPending := false, fault := none
        trace := .read 0xFFFD h :: .read 0xFFFC l :: s.trace } ∧
    s.resetEvent.pByte false = 0x24 ∧ s.resetEvent.pByte true = 0x34

/-- R42: before the first `Reset` the state may be any; a `Tick` is refused, a trigger is legal and is wiped by the
`Reset` that follows (log 10). -/
def Obligations.TickBeforeFirstResetIsRefused : Prop :=
  ∀ s : State,
    (Block.beforeReset s).present .tick = .refused .tickBeforeReset ∧
    (Block.beforeReset s).presentAll [.triggerNmi, .reset] = .next (.running s.resetEvent) ∧
    (Block.beforeReset s).presentAll [.triggerIrq, .reset] = .next (.running s.resetEvent) ∧
    (Block.beforeReset s).present .reset = .next (.running s.resetEvent)

/-- R40, R317: events presented at one tick act in the order `Reset`, triggers, `Tick`; a trigger sets its own latch
and nothing else; a second one before the service changes nothing. -/
def Obligations.EventsOfOneTickActInOrder : Prop :=
  (∀ (p : Inputs) (s : State),
    let s1 := if p.rst then s.resetEvent else s
    let s2 := if p.nmiSet then { s1 with nmiPending := true } else s1
    let s3 := if p.irqSet then { s2 with irqPending := true } else s2
    (Block.running s).presentAll p.events =
      if p.clk then Block.ofResult (step s3) else .next (.running s3)) ∧
  (∀ s : State, s.triggerNmi.triggerNmi = s.triggerNmi ∧ s.triggerIrq.triggerIrq = s.triggerIrq)

/-! ## The tick -/

/-- R122, R345: an Idle tick decrements the counter and does nothing else, whatever the latches hold; so from an
unfaulted state exactly `cyclesRemaining` ticks lead to the next Dispatch tick. -/
def Obligations.IdleTicksDrainToDispatch : Prop :=
  ∀ s : State, s.fault = none →
    (s.cyclesRemaining > 0 → step s = .next { s with cyclesRemaining := s.cyclesRemaining - 1 }) ∧
    Sys2Proof.core.run s.cyclesRemaining s = .next { s with cyclesRemaining := 0 }

/-- R129, R301: while faulted any number of ticks changes nothing; the triggers still set their latches; `Reset` clears
the fault and the latches. -/
def Obligations.FaultIsStickyUntilReset : Prop :=
  ∀ s : State, s.fault ≠ none →
    (∀ n : Nat, Sys2Proof.core.run n s = .next s) ∧
    s.triggerNmi = { s with nmiPending := true } ∧
    s.triggerIrq = { s with irqPending := true } ∧
    s.resetEvent.fault = none ∧ s.resetEvent.nmiPending = false ∧ s.resetEvent.irqPending = false

/-- R307, R308, R310, R314: at a Dispatch tick a latched NMI is taken whatever `I` is; else a latched IRQ is taken when
`I` is clear: the latch cleared, the entry of R310, seven cycles. With both latched the NMI goes first and the IRQ
stays latched: not due at the next Dispatch tick, since the entry set `I`, and due once `I` is clear. -/
def Obligations.InterruptsAreTakenAtDispatch : Prop :=
  (∀ (s : State) (vector : Word) (b : Bool), s.interruptEntry vector b = s.afterEntry vector s.pc b) ∧
  (∀ s : State, s.fault = none → s.cyclesRemaining = 0 → s.nmiPending = true →
    step s = .next { s.afterEntry 0xFFFA s.pc false with nmiPending := false, cyclesRemaining := 6 }) ∧
  (∀ s : State, s.fault = none → s.cyclesRemaining = 0 → s.nmiPending = false → s.irqPending = true →
    s.flagI = false →
    step s = .next { s.afterEntry 0xFFFE s.pc false with irqPending := false, cyclesRemaining := 6 }) ∧
  (∀ s : State, s.fault = none → s.cyclesRemaining = 0 → s.nmiPending = true → s.irqPending = true →
    ∃ t, step s = .next t ∧ t.irqPending = true ∧ t.nmiPending = false ∧ t.flagI = true ∧
      ({ t with cyclesRemaining := 0 }).nextAction = .instruction ∧
      ({ t with cyclesRemaining := 0, flagI := false }).nextAction = .irq)

/-- R124: at an instruction the bytes at `PC` always decode to a row of the table, and the step is `exec` of that
instruction at the state with `PC` past its opcode and operand bytes and exactly those bytes read, in order. -/
def Obligations.StepRunsTheDecodedInstruction : Prop :=
  ∀ s : State, s.AtInstruction →
    (∃ i rest, decode s.codeBytes = .ok (i, rest) ∧ i.WellFormed) ∧
    ∀ i rest, decode s.codeBytes = .ok (i, rest) →
      step s = exec i
        { s with pc := s.pc + BitVec.ofNat 16 i.fetchLength, trace := readTrace s.pc (encode i) s.trace }

/-- R128, R286, R302: an `INVALID` byte at `PC` sets the fault latch with code 1, the byte and its address; the one
bus read apart, nothing else changes. -/
def Obligations.InvalidOpcodeSetsTheFaultLatch : Prop :=
  (∀ (s : State) (op : Byte), op ∈ invalidOpcodes →
    exec (.invalid op) s = .next { s with fault := some ⟨.unimplementedOpcode, op, s.pc⟩ }) ∧
  (∀ s : State, s.AtInstruction → s.peek s.pc ∈ invalidOpcodes →
    step s = .next
      { s with
        fault := some ⟨.unimplementedOpcode, s.peek s.pc, s.pc⟩
        trace := .read s.pc (s.peek s.pc) :: s.trace }) ∧
  State.faultNumber .unimplementedOpcode = 1 ∧
  invalidOpcodes = [0x02, 0x12, 0x22, 0x32, 0x42, 0x52, 0x62, 0x72, 0x92, 0xB2, 0xD2, 0xF2]

/-- R304, R120: no state, no address, no byte stops the machine: every step answers a next state, and only an `INVALID`
byte at an instruction changes the fault latch. -/
def Obligations.EveryStepAnswersANextState : Prop :=
  ∀ s : State, ∃ t, step s = .next t ∧
    (t.fault = s.fault ∨ (s.AtInstruction ∧ s.peek s.pc ∈ invalidOpcodes))

/-- R98, R303: a row of the opcode table completes in every state; a term that is none stops with the fault of
R303, and only such a term. That this fault is a stop of `exec` and not a latch is the model's choice (log 8). -/
def Obligations.RowsCompleteAndOtherTermsFault : Prop :=
  ∀ (i : Instr) (s : State),
    (i.WellFormed → ∃ t, exec i s = .next t) ∧
    (¬ i.WellFormed → exec i s = .fault .unsupportedAddressingMode)

/-! ## The invariant -/

/-- The reset state meets the invariant. Its empty memory and bus map are the model's choice (logs 1, 2, 7). -/
def Obligations.ResetStateMeetsTheInvariant : Prop := State.reset.Inv

/-- Every step keeps the invariant: canonical memory (the model's own form, log 1), at most seven cycles left (R35,
R345), a fault latch as R302 and R128 leave it. -/
def Obligations.StepKeepsTheInvariant : Prop :=
  ∀ s t : State, s.Inv → step s = .next t → t.Inv

/-- The other events keep it too; `Reset` establishes it over any state whose memory is canonical (log 1). -/
def Obligations.EventsKeepTheInvariant : Prop :=
  ∀ s : State,
    (s.Inv → s.triggerNmi.Inv ∧ s.triggerIrq.Inv) ∧
    (s.mem.wf = true → s.resetEvent.Inv)

/-- R66, R71: a step only adds to the bus trace, at most six transactions, and none at an Idle tick or while
faulted; it never changes what answers on the bus. Trace and bus map are the model's own fields (logs 2, 4). -/
def Obligations.StepOnlyExtendsTheTrace : Prop :=
  ∀ s t : State, step s = .next t →
    t.busMap = s.busMap ∧
    (∃ new, t.trace = new ++ s.trace ∧ new.length ≤ 6) ∧
    (s.fault ≠ none ∨ s.cyclesRemaining > 0 → t.trace = s.trace)

/-! ## Encoding -/

/-- R93, R95, R98: decoding an encoded row gives it back and leaves the bytes after it. -/
def Obligations.DecodeOfEncodeIsTheInstruction : Prop :=
  ∀ (i : Instr) (rest : List Byte), i.WellFormed → decode (encode i ++ rest) = .ok (i, rest)

/-- R93, R95: what the decoder accepts is a row of the table, and encoding it gives the bytes back; three bytes are
always enough, whatever they are. -/
def Obligations.EncodeOfDecodeIsTheBytes : Prop :=
  (∀ (bytes rest : List Byte) (i : Instr),
    decode bytes = .ok (i, rest) → i.WellFormed ∧ encode i ++ rest = bytes) ∧
  (∀ op b1 b2 : Byte, ∃ i rest, decode [op, b1, b2] = .ok (i, rest))

/-- Words written out from R95 and R92, one or more of each family. -/
def Obligations.SampleWordsDecode : Prop :=
  decode [0xA9, 0x05] = .ok (.lda (.imm 0x05), []) ∧
  decode [0x4C, 0x00, 0x90] = .ok (.jmp (.abs 0x9000), []) ∧
  decode [0x71, 0x20] = .ok (.adc (.izy 0x20), []) ∧
  decode [0x36, 0xF0] = .ok (.rol (.zpx 0xF0), []) ∧
  decode [0xF0, 0x04] = .ok (.beq 0x04, []) ∧
  decode [0x00, 0xFF] = .ok (.brk, [0xFF]) ∧
  decode [0x9B, 0x00, 0x20] = .ok (.tas 0x2000, []) ∧
  decode [0x2B, 0x7F] = .ok (.anc 0x2B 0x7F, []) ∧
  decode [0x02] = .ok (.invalid 0x02, []) ∧
  decode [0x6C, 0xFF] = .error (.missingOperand 0x6C)

/-- R153: the rows that pay the page-cross cycle are exactly the read-class ones in `ABX`, `ABY` and `IZY`. -/
def Obligations.PageCrossPenaltyIsTheReadClass : Prop :=
  ∀ (i : Instr) (f : Form), i.form = some f → (f.penalty = .cross ↔ crossReadClass i = true)

/-! ## The resolver -/

/-- R141 to R149, R154: the modes without a pointer, as integer arithmetic; no bus read, nothing changes. The operand
bytes have been read by the fetch (log 6). -/
def Obligations.DirectModesResolve : Prop :=
  ∀ (s : State) (d : Byte) (w : Word),
    resolve .imp s = (⟨none, none, false⟩, s) ∧
    resolve .acc s = (⟨none, none, false⟩, s) ∧
    resolve (.imm d) s = (⟨some (s.pc - 1), none, false⟩, s) ∧
    resolve (.zp d) s = (⟨some (BitVec.ofNat 16 d.toNat), none, false⟩, s) ∧
    resolve (.zpx d) s = (⟨some (BitVec.ofNat 16 ((d.toNat + s.x.toNat) % 256)), none, false⟩, s) ∧
    resolve (.zpy d) s = (⟨some (BitVec.ofNat 16 ((d.toNat + s.y.toNat) % 256)), none, false⟩, s) ∧
    resolve (.abs w) s = (⟨some w, some w, false⟩, s) ∧
    resolve (.abx w) s =
      (⟨some (BitVec.ofNat 16 (w.toNat + s.x.toNat)), some w,
        (w.toNat + s.x.toNat) % 65536 / 256 ≠ w.toNat / 256⟩, s) ∧
    resolve (.aby w) s =
      (⟨some (BitVec.ofNat 16 (w.toNat + s.y.toNat)), some w,
        (w.toNat + s.y.toNat) % 65536 / 256 ≠ w.toNat / 256⟩, s) ∧
    resolve (.rel d) s = (⟨some (BitVec.ofInt 16 (s.pc.toNat + d.toInt)), some s.pc, false⟩, s)

/-- R150 to R152, R69: the pointer modes read the low byte, then the high byte: `IND` from the same page, `IZX` and
`IZY` from the zero page; `IZY` adds `Y` modulo 65536 and reports a page cross. -/
def Obligations.PointerModesResolve : Prop :=
  ∀ (s : State) (aLow aHigh : Word), ∃ (l h : Byte) (s2 : State),
    l = s.peek aLow ∧
    h = ({ s with trace := .read aLow l :: s.trace }).peek aHigh ∧
    s2 = { s with trace := .read aHigh h :: .read aLow l :: s.trace } ∧
    (∀ w : Word, aLow = w → aHigh.toNat = w.toNat / 256 * 256 + (w.toNat + 1) % 256 →
      resolve (.ind w) s = (⟨some (w16 h l), some w, false⟩, s2)) ∧
    (∀ d : Byte, aLow.toNat = (d.toNat + s.x.toNat) % 256 → aHigh.toNat = (d.toNat + s.x.toNat + 1) % 256 →
      resolve (.izx d) s = (⟨some (w16 h l), none, false⟩, s2)) ∧
    (∀ d : Byte, aLow.toNat = d.toNat → aHigh.toNat = (d.toNat + 1) % 256 →
      resolve (.izy d) s =
        (⟨some (w16 h l + BitVec.ofNat 16 s.y.toNat), some (w16 h l),
          ((w16 h l).toNat + s.y.toNat) % 65536 / 256 ≠ (w16 h l).toNat / 256⟩, s2))

/-- R140: the resolver, and the read of the operand after it, write no register, no flag, no latch and no memory: only
the trace grows, by reads. An Immediate operand is the byte itself, with no further read; every other operand with an
address is one read of that address after the resolver's; a form without an address has none. R140 lets the resolver
write `PC`; that it does not here, and that the fetch has read the Immediate byte, is log 6. -/
def Obligations.OperandAccessChangesOnlyTheTrace : Prop :=
  ∀ (o : Operand) (s : State),
    (resolve o s).2 = { s with trace := (resolve o s).2.trace } ∧
    (∃ new, (resolve o s).2.trace = new ++ s.trace ∧ ∀ e ∈ new, ∃ a v, e = BusTxn.read a v) ∧
    (∀ m s1, s.operandOf o = some (m, s1) → s1 = { s with trace := s1.trace }) ∧
    (∀ d, o = .imm d → s.operandOf o = some (d, s)) ∧
    ((∀ d, o ≠ .imm d) → ∀ ea s1, s.addressOf o = some (ea, s1) →
      s.operandOf o = some (s1.peek ea, { s1 with trace := .read ea (s1.peek ea) :: s1.trace })) ∧
    (s.addressOf o = none → s.operandOf o = none) ∧
    (s.addressOf o = none ↔ o = .imp ∨ o = .acc)

/-! ## The ALU and flags unit -/

/-- R180: `Z` and `N` of a result byte, never both. After every instruction that writes them, `BIT`, `PLP` and `RTI`
apart (R25, R31), they are those of its result: the register or memory byte it wrote, or the difference of a compare. -/
def Obligations.ZeroNegativeLaw : Prop :=
  (∀ (v : Byte) (s : State), ∃ z n : Bool,
    s.setZN v = { s with flagZ := z, flagN := n } ∧
    (z = true ↔ v = 0) ∧ (n = true ↔ v.toNat / 128 = 1) ∧ ¬ (z = true ∧ n = true)) ∧
  (∀ (i : Instr) (s t : State), writesZN i = true → (∀ o, i ≠ .bit o) → i ≠ .plp → i ≠ .rti →
    exec i s = .next t →
    ∃ r : Byte, resultByte i s t = some r ∧ (t.flagZ = true ↔ r = 0) ∧ (t.flagN = true ↔ r.toNat / 128 = 1))

/-- R181: the adder as integer arithmetic: the sum modulo 256, the carry out of it, the overflow of the signed sum. -/
def Obligations.AdderIsIntegerAddition : Prop :=
  ∀ (s : State) (m : Byte), ∃ (r : Byte) (c v : Bool),
    s.addWithCarry m = { s with a := r, flagC := c, flagV := v, flagZ := r == 0, flagN := r.getLsbD 7 } ∧
    r.toNat = (s.a.toNat + m.toNat + s.flagC.toNat) % 256 ∧
    (c = true ↔ s.a.toNat + m.toNat + s.flagC.toNat > 255) ∧
    (v = true ↔ (~~~(s.a ^^^ m) &&& (s.a ^^^ r) &&& 0x80) ≠ 0) ∧
    (v = true ↔ s.a.toInt + m.toInt + (s.flagC.toNat : Int) < -128 ∨
      s.a.toInt + m.toInt + (s.flagC.toNat : Int) > 127)

/-- R187, R195 (g): with the complemented operand the adder subtracts with borrow, `A - m - (1 - C)`: the carry means
no borrow, the overflow is that of the signed difference. An addition of `m` and then a subtraction of `m` with the
complement of the original carry restores `A`; with the carry out of the addition it does not
(`90_conflicts.md` C9). -/
def Obligations.SubtractionIsIntegerSubtraction : Prop :=
  (∀ (s : State) (m : Byte), ∃ t : State,
    t = s.addWithCarry (m ^^^ 0xFF) ∧
    (t.a.toNat : Int) = ((s.a.toNat : Int) - m.toNat - (1 - s.flagC.toNat)) % 256 ∧
    (t.flagC = true ↔ m.toNat + (1 - s.flagC.toNat) ≤ s.a.toNat) ∧
    (t.flagV = true ↔ s.a.toInt - m.toInt - (1 - s.flagC.toNat : Int) < -128 ∨
      s.a.toInt - m.toInt - (1 - s.flagC.toNat : Int) > 127)) ∧
  (∀ (s : State) (m : Byte),
    (((s.addWithCarry m).setC (!s.flagC)).addWithCarry (m ^^^ 0xFF)).a = s.a) ∧
  (∃ (s : State) (m : Byte), ((s.addWithCarry m).addWithCarry (m ^^^ 0xFF)).a ≠ s.a)

/-- R182: a compare sets `C`, `Z`, `N` of an unsigned comparison and writes nothing else. -/
def Obligations.CompareIsUnsigned : Prop :=
  ∀ (s : State) (r m : Byte), ∃ c z n : Bool,
    s.compare r m = { s with flagC := c, flagZ := z, flagN := n } ∧
    (c = true ↔ m.toNat ≤ r.toNat) ∧
    (z = true ↔ r = m) ∧
    (n = true ↔ (r.toNat + 256 - m.toNat) % 256 ≥ 128) ∧
    (c = true ∧ z = false ↔ m.toNat < r.toNat)

/-- R211: the table of the one-bit functions; nine rotations restore the byte and the carry. -/
def Obligations.OneBitFunctions : Prop :=
  ∀ (v : Byte) (c : Bool),
    ((asl v c).1.toNat = v.toNat * 2 % 256 ∧ (asl v c).2 = v.getLsbD 7) ∧
    ((lsr v c).1.toNat = v.toNat / 2 ∧ (lsr v c).2 = v.getLsbD 0) ∧
    ((rol v c).1.toNat = v.toNat * 2 % 256 + c.toNat ∧ (rol v c).2 = v.getLsbD 7) ∧
    ((ror v c).1.toNat = v.toNat / 2 + 128 * c.toNat ∧ (ror v c).2 = v.getLsbD 0) ∧
    (fun p : Byte × Bool => rol p.1 p.2)^[9] (v, c) = (v, c) ∧
    (fun p : Byte × Bool => ror p.1 p.2)^[9] (v, c) = (v, c)

/-- R33, R34: the bits of the status byte, what a pulled byte writes, and that the two undo each other. -/
def Obligations.StatusByteImages : Prop :=
  ∀ (s : State) (b : Bool) (v : Byte),
    (s.pByte b).toNat =
      s.flagN.toNat * 128 + s.flagV.toNat * 64 + 1 * 32 + b.toNat * 16 + s.flagD.toNat * 8 + s.flagI.toNat * 4 +
        s.flagZ.toNat * 2 + s.flagC.toNat ∧
    s.setP v =
      { s with
        flagN := v.getLsbD 7, flagV := v.getLsbD 6, flagD := v.getLsbD 3, flagI := v.getLsbD 2
        flagZ := v.getLsbD 1, flagC := v.getLsbD 0 } ∧
    s.setP (s.pByte b) = s ∧
    (s.setP v).pByte b = (v &&& 0xCF) ||| 0x20 ||| (if b then 0x10 else 0)

/-! ## Memory and stack -/

/-- Equal contents are equal data: two canonical memories that read the same everywhere are the same list. The form is
the model's own (log 1). -/
def Obligations.CanonicalMemoriesAreEqualData : Prop :=
  ∀ m n : Memory, m.wf = true → n.wf = true → (∀ a, m.read a = n.read a) → m = n

/-- R62, R71: where plain memory answers, a read returns the last byte written; every other address is untouched, and
a write to a read-only, unmapped or peripheral address changes no contents at all. Which address is which is the
model's own field (log 2). -/
def Obligations.BusReadReturnsTheLastWrite : Prop :=
  ∀ (s : State) (a : Word) (v : Byte), s.mem.wf = true →
    (s.plain a → (s.busWrite a v).peek a = v) ∧
    (¬ s.plain a → (s.busWrite a v).mem = s.mem) ∧
    (∀ b : Nat, b ≠ a.toNat → (s.busWrite a v).mem.read b = s.mem.read b) ∧
    (s.busWrite a v).trace = .write a v :: s.trace

/-- R68: push writes, then decrements; pull increments, then reads; both modulo 256, in the stack page. -/
def Obligations.StackPrimitives : Prop :=
  ∀ (s : State) (v : Byte), ∃ aPush aPull : Word,
    aPush.toNat = 0x0100 + s.sp.toNat ∧
    aPull.toNat = 0x0100 + (s.sp.toNat + 1) % 256 ∧
    s.push v =
      { s with
        mem := s.stored aPush v
        sp := s.sp - 1
        trace := .write aPush v :: s.trace } ∧
    s.pull =
      (s.peek aPull, { s with sp := s.sp + 1, trace := .read aPull (s.peek aPull) :: s.trace })

/-! ## Load, store, transfer -/

/-- R160 to R162, R270: the forms of the loads, and that each loads the operand byte and sets `Z` and `N` by it. -/
def Obligations.LoadResults : Prop :=
  FormsAre .lda [(.imm, ⟨0xA9, 2, .never⟩), (.zp, ⟨0xA5, 3, .never⟩), (.zpx, ⟨0xB5, 4, .never⟩),
    (.abs, ⟨0xAD, 4, .never⟩), (.abx, ⟨0xBD, 4, .cross⟩), (.aby, ⟨0xB9, 4, .cross⟩), (.izx, ⟨0xA1, 6, .never⟩),
    (.izy, ⟨0xB1, 5, .cross⟩)] ∧
  FormsAre .ldx [(.imm, ⟨0xA2, 2, .never⟩), (.zp, ⟨0xA6, 3, .never⟩), (.zpy, ⟨0xB6, 4, .never⟩),
    (.abs, ⟨0xAE, 4, .never⟩), (.aby, ⟨0xBE, 4, .cross⟩)] ∧
  FormsAre .ldy [(.imm, ⟨0xA0, 2, .never⟩), (.zp, ⟨0xA4, 3, .never⟩), (.zpx, ⟨0xB4, 4, .never⟩),
    (.abs, ⟨0xAC, 4, .never⟩), (.abx, ⟨0xBC, 4, .cross⟩)] ∧
  FormsAre .lax [(.zp, ⟨0xA7, 3, .never⟩), (.zpy, ⟨0xB7, 4, .never⟩), (.abs, ⟨0xAF, 4, .never⟩),
    (.aby, ⟨0xBF, 4, .cross⟩), (.izx, ⟨0xA3, 6, .never⟩), (.izy, ⟨0xB3, 5, .cross⟩)] ∧
  ∀ (o : Operand) (s : State),
    ((Instr.lda o).WellFormed → ∃ m tr, s.Reads o m tr ∧
      exec (.lda o) s = .next
        { s with
          a := m, flagZ := m == 0, flagN := m.getLsbD 7, cyclesRemaining := cyclesAfter (.lda o) s, trace := tr }) ∧
    ((Instr.ldx o).WellFormed → ∃ m tr, s.Reads o m tr ∧
      exec (.ldx o) s = .next
        { s with
          x := m, flagZ := m == 0, flagN := m.getLsbD 7, cyclesRemaining := cyclesAfter (.ldx o) s, trace := tr }) ∧
    ((Instr.ldy o).WellFormed → ∃ m tr, s.Reads o m tr ∧
      exec (.ldy o) s = .next
        { s with
          y := m, flagZ := m == 0, flagN := m.getLsbD 7, cyclesRemaining := cyclesAfter (.ldy o) s, trace := tr }) ∧
    ((Instr.lax o).WellFormed → ∃ m tr, s.Reads o m tr ∧
      exec (.lax o) s = .next
        { s with
          a := m, x := m, flagZ := m == 0, flagN := m.getLsbD 7, cyclesRemaining := cyclesAfter (.lax o) s
          trace := tr })

/-- R163 to R165, R269: the forms of the stores, and that each writes its register byte to the resolved address, once,
without reading it first, and changes no register and no flag. -/
def Obligations.StoreResults : Prop :=
  FormsAre .sta [(.zp, ⟨0x85, 3, .never⟩), (.zpx, ⟨0x95, 4, .never⟩), (.abs, ⟨0x8D, 4, .never⟩),
    (.abx, ⟨0x9D, 5, .never⟩), (.aby, ⟨0x99, 5, .never⟩), (.izx, ⟨0x81, 6, .never⟩), (.izy, ⟨0x91, 6, .never⟩)] ∧
  FormsAre .stx [(.zp, ⟨0x86, 3, .never⟩), (.zpy, ⟨0x96, 4, .never⟩), (.abs, ⟨0x8E, 4, .never⟩)] ∧
  FormsAre .sty [(.zp, ⟨0x84, 3, .never⟩), (.zpx, ⟨0x94, 4, .never⟩), (.abs, ⟨0x8C, 4, .never⟩)] ∧
  FormsAre .sax [(.zp, ⟨0x87, 3, .never⟩), (.zpy, ⟨0x97, 4, .never⟩), (.abs, ⟨0x8F, 4, .never⟩),
    (.izx, ⟨0x83, 6, .never⟩)] ∧
  ∀ (i : Instr) (o : Operand) (s : State) (v : Byte), i.WellFormed →
    (i = .sta o ∧ v = s.a) ∨ (i = .stx o ∧ v = s.x) ∨ (i = .sty o ∧ v = s.y) ∨ (i = .sax o ∧ v = s.a &&& s.x) →
    ∃ ea tr, s.ResolvesTo o ea tr ∧
      exec i s = .next
        { s with mem := s.stored ea v, cyclesRemaining := cyclesAfter i s, trace := .write ea v :: tr }

/-- R166 to R171: the six transfers, their opcodes and two cycles; `TXS` alone changes no flag. -/
def Obligations.TransferResults : Prop :=
  ∀ s : State,
    encode .tax = [0xAA] ∧ encode .tay = [0xA8] ∧ encode .txa = [0x8A] ∧
    encode .tya = [0x98] ∧ encode .tsx = [0xBA] ∧ encode .txs = [0x9A] ∧
    exec .tax s = .next { s with x := s.a, flagZ := s.a == 0, flagN := s.a.getLsbD 7, cyclesRemaining := 1 } ∧
    exec .tay s = .next { s with y := s.a, flagZ := s.a == 0, flagN := s.a.getLsbD 7, cyclesRemaining := 1 } ∧
    exec .txa s = .next { s with a := s.x, flagZ := s.x == 0, flagN := s.x.getLsbD 7, cyclesRemaining := 1 } ∧
    exec .tya s = .next { s with a := s.y, flagZ := s.y == 0, flagN := s.y.getLsbD 7, cyclesRemaining := 1 } ∧
    exec .tsx s = .next { s with x := s.sp, flagZ := s.sp == 0, flagN := s.sp.getLsbD 7, cyclesRemaining := 1 } ∧
    exec .txs s = .next { s with sp := s.x, cyclesRemaining := 1 }

/-! ## Logic, arithmetic, compare, bit test -/

/-- R183 to R185, R191: the forms of `ORA`, `AND`, `EOR`, `BIT`, and their results and flags. -/
def Obligations.LogicAndBitTestResults : Prop :=
  FormsAre .ora [(.imm, ⟨0x09, 2, .never⟩), (.zp, ⟨0x05, 3, .never⟩), (.zpx, ⟨0x15, 4, .never⟩),
    (.abs, ⟨0x0D, 4, .never⟩), (.abx, ⟨0x1D, 4, .cross⟩), (.aby, ⟨0x19, 4, .cross⟩), (.izx, ⟨0x01, 6, .never⟩),
    (.izy, ⟨0x11, 5, .cross⟩)] ∧
  FormsAre .and [(.imm, ⟨0x29, 2, .never⟩), (.zp, ⟨0x25, 3, .never⟩), (.zpx, ⟨0x35, 4, .never⟩),
    (.abs, ⟨0x2D, 4, .never⟩), (.abx, ⟨0x3D, 4, .cross⟩), (.aby, ⟨0x39, 4, .cross⟩), (.izx, ⟨0x21, 6, .never⟩),
    (.izy, ⟨0x31, 5, .cross⟩)] ∧
  FormsAre .eor [(.imm, ⟨0x49, 2, .never⟩), (.zp, ⟨0x45, 3, .never⟩), (.zpx, ⟨0x55, 4, .never⟩),
    (.abs, ⟨0x4D, 4, .never⟩), (.abx, ⟨0x5D, 4, .cross⟩), (.aby, ⟨0x59, 4, .cross⟩), (.izx, ⟨0x41, 6, .never⟩),
    (.izy, ⟨0x51, 5, .cross⟩)] ∧
  FormsAre .bit [(.zp, ⟨0x24, 3, .never⟩), (.abs, ⟨0x2C, 4, .never⟩)] ∧
  ∀ (o : Operand) (s : State),
    (∀ (i : Instr) (f : Byte → Byte), i.WellFormed →
      (i = .ora o ∧ f = fun m => s.a ||| m) ∨ (i = .and o ∧ f = fun m => s.a &&& m) ∨
        (i = .eor o ∧ f = fun m => s.a ^^^ m) →
      ∃ m tr, s.Reads o m tr ∧
        exec i s = .next
          { s with
            a := f m, flagZ := f m == 0, flagN := (f m).getLsbD 7, cyclesRemaining := cyclesAfter i s
            trace := tr }) ∧
    ((Instr.bit o).WellFormed → ∃ m tr, s.Reads o m tr ∧
      exec (.bit o) s = .next
        { s with
          flagZ := (s.a &&& m) == 0, flagN := m.getLsbD 7, flagV := m.getLsbD 6
          cyclesRemaining := cyclesAfter (.bit o) s, trace := tr })

/-- R186, R187, R285: the forms of `ADC` and `SBC`, and that they run the adder of R181 on the operand byte, or on its
complement, which makes it subtraction with borrow; nothing but `A`, `C`, `V`, `Z`, `N` changes. -/
def Obligations.AddAndSubtractResults : Prop :=
  FormsAre .adc [(.imm, ⟨0x69, 2, .never⟩), (.zp, ⟨0x65, 3, .never⟩), (.zpx, ⟨0x75, 4, .never⟩),
    (.abs, ⟨0x6D, 4, .never⟩), (.abx, ⟨0x7D, 4, .cross⟩), (.aby, ⟨0x79, 4, .cross⟩), (.izx, ⟨0x61, 6, .never⟩),
    (.izy, ⟨0x71, 5, .cross⟩)] ∧
  FormsAre .sbc [(.imm, ⟨0xE9, 2, .never⟩), (.zp, ⟨0xE5, 3, .never⟩), (.zpx, ⟨0xF5, 4, .never⟩),
    (.abs, ⟨0xED, 4, .never⟩), (.abx, ⟨0xFD, 4, .cross⟩), (.aby, ⟨0xF9, 4, .cross⟩), (.izx, ⟨0xE1, 6, .never⟩),
    (.izy, ⟨0xF1, 5, .cross⟩)] ∧
  (∀ d : Byte, (Instr.sbcU d).form = some ⟨0xEB, 2, .never⟩) ∧
  ∀ (i : Instr) (s : State) (f : Byte → Byte), i.WellFormed →
    ((∃ o, i = .adc o) ∧ f = fun m => m) ∨ ((∃ o, i = .sbc o) ∧ f = fun m => 255 - m) ∨
      ((∃ d, i = .sbcU d) ∧ f = fun m => 255 - m) →
    ∃ m tr r c v, s.Reads i.operand m tr ∧
      exec i s = .next
        { s with
          a := r, flagC := c, flagV := v, flagZ := r == 0, flagN := r.getLsbD 7
          cyclesRemaining := cyclesAfter i s, trace := tr } ∧
      r.toNat = (s.a.toNat + (f m).toNat + s.flagC.toNat) % 256 ∧
      (c = true ↔ s.a.toNat + (f m).toNat + s.flagC.toNat > 255) ∧
      (v = true ↔ s.a.toInt + (f m).toInt + (s.flagC.toNat : Int) < -128 ∨
        s.a.toInt + (f m).toInt + (s.flagC.toNat : Int) > 127) ∧
      ((∀ o, i ≠ .adc o) →
        (r.toNat : Int) = ((s.a.toNat : Int) - m.toNat - (1 - s.flagC.toNat)) % 256 ∧
        (c = true ↔ m.toNat + (1 - s.flagC.toNat) ≤ s.a.toNat) ∧
        (v = true ↔ s.a.toInt - m.toInt - (1 - s.flagC.toNat : Int) < -128 ∨
          s.a.toInt - m.toInt - (1 - s.flagC.toNat : Int) > 127))

/-- R188 to R190: the forms of the compares, and that they compare the register with the operand byte as R182 does;
no register and not `V` changes. -/
def Obligations.CompareResults : Prop :=
  FormsAre .cmp [(.imm, ⟨0xC9, 2, .never⟩), (.zp, ⟨0xC5, 3, .never⟩), (.zpx, ⟨0xD5, 4, .never⟩),
    (.abs, ⟨0xCD, 4, .never⟩), (.abx, ⟨0xDD, 4, .cross⟩), (.aby, ⟨0xD9, 4, .cross⟩), (.izx, ⟨0xC1, 6, .never⟩),
    (.izy, ⟨0xD1, 5, .cross⟩)] ∧
  FormsAre .cpx [(.imm, ⟨0xE0, 2, .never⟩), (.zp, ⟨0xE4, 3, .never⟩), (.abs, ⟨0xEC, 4, .never⟩)] ∧
  FormsAre .cpy [(.imm, ⟨0xC0, 2, .never⟩), (.zp, ⟨0xC4, 3, .never⟩), (.abs, ⟨0xCC, 4, .never⟩)] ∧
  ∀ (i : Instr) (o : Operand) (s : State) (r : Byte), i.WellFormed →
    (i = .cmp o ∧ r = s.a) ∨ (i = .cpx o ∧ r = s.x) ∨ (i = .cpy o ∧ r = s.y) →
    ∃ m tr, s.Reads o m tr ∧
      exec i s = .next
        { s with
          flagC := m.toNat ≤ r.toNat, flagZ := r == m, flagN := (r - m).getLsbD 7
          cyclesRemaining := cyclesAfter i s, trace := tr }

/-! ## Shift, rotate, increment, decrement -/

/-- R200 to R203: the shifts and rotates on `A` and on memory. On memory: one read, one write of the result to the same
address, `A` untouched. -/
def Obligations.ShiftAndRotateResults : Prop :=
  FormsAre .asl [(.acc, ⟨0x0A, 2, .never⟩), (.zp, ⟨0x06, 5, .never⟩), (.zpx, ⟨0x16, 6, .never⟩),
    (.abs, ⟨0x0E, 6, .never⟩), (.abx, ⟨0x1E, 7, .never⟩)] ∧
  FormsAre .lsr [(.acc, ⟨0x4A, 2, .never⟩), (.zp, ⟨0x46, 5, .never⟩), (.zpx, ⟨0x56, 6, .never⟩),
    (.abs, ⟨0x4E, 6, .never⟩), (.abx, ⟨0x5E, 7, .never⟩)] ∧
  FormsAre .rol [(.acc, ⟨0x2A, 2, .never⟩), (.zp, ⟨0x26, 5, .never⟩), (.zpx, ⟨0x36, 6, .never⟩),
    (.abs, ⟨0x2E, 6, .never⟩), (.abx, ⟨0x3E, 7, .never⟩)] ∧
  FormsAre .ror [(.acc, ⟨0x6A, 2, .never⟩), (.zp, ⟨0x66, 5, .never⟩), (.zpx, ⟨0x76, 6, .never⟩),
    (.abs, ⟨0x6E, 6, .never⟩), (.abx, ⟨0x7E, 7, .never⟩)] ∧
  ∀ (i : Instr) (o : Operand) (s : State) (r : Byte → Nat) (carry : Nat), i.WellFormed →
    (i = .asl o ∧ carry = 7 ∧ r = fun v => v.toNat * 2 % 256) ∨
      (i = .lsr o ∧ carry = 0 ∧ r = fun v => v.toNat / 2) ∨
      (i = .rol o ∧ carry = 7 ∧ r = fun v => v.toNat * 2 % 256 + s.flagC.toNat) ∨
      (i = .ror o ∧ carry = 0 ∧ r = fun v => v.toNat / 2 + 128 * s.flagC.toNat) →
    (o = .acc →
      exec i s = .next
        { s with
          a := BitVec.ofNat 8 (r s.a), flagC := s.a.getLsbD carry, flagZ := r s.a == 0
          flagN := r s.a ≥ 128, cyclesRemaining := 1 }) ∧
    (o ≠ .acc → ∃ ea m tr, s.ResolvesTo o ea tr ∧ m = ({ s with trace := tr }).peek ea ∧
      exec i s = .next
        { s with
          mem := s.stored ea (BitVec.ofNat 8 (r m)), flagC := m.getLsbD carry, flagZ := r m == 0
          flagN := r m ≥ 128, cyclesRemaining := cyclesAfter i s
          trace := .write ea (BitVec.ofNat 8 (r m)) :: .read ea m :: tr })

/-- R204, R205: `INC` and `DEC`: one read, one write of the value plus or minus one modulo 256; only `Z` and `N`. -/
def Obligations.MemoryIncrementResults : Prop :=
  FormsAre .inc [(.zp, ⟨0xE6, 5, .never⟩), (.zpx, ⟨0xF6, 6, .never⟩), (.abs, ⟨0xEE, 6, .never⟩),
    (.abx, ⟨0xFE, 7, .never⟩)] ∧
  FormsAre .dec [(.zp, ⟨0xC6, 5, .never⟩), (.zpx, ⟨0xD6, 6, .never⟩), (.abs, ⟨0xCE, 6, .never⟩),
    (.abx, ⟨0xDE, 7, .never⟩)] ∧
  ∀ (i : Instr) (o : Operand) (s : State) (r : Byte → Byte), i.WellFormed →
    (i = .inc o ∧ r = fun v => v + 1) ∨ (i = .dec o ∧ r = fun v => v - 1) →
    ∃ ea m tr, s.ResolvesTo o ea tr ∧ m = ({ s with trace := tr }).peek ea ∧
      exec i s = .next
        { s with
          mem := s.stored ea (r m), flagZ := r m == 0, flagN := (r m).getLsbD 7
          cyclesRemaining := cyclesAfter i s, trace := .write ea (r m) :: .read ea m :: tr }

/-- R206 to R209: the register increments and decrements, their opcodes and two cycles; only `Z` and `N`. -/
def Obligations.RegisterIncrementResults : Prop :=
  ∀ s : State,
    encode .inx = [0xE8] ∧ encode .iny = [0xC8] ∧ encode .dex = [0xCA] ∧ encode .dey = [0x88] ∧
    exec .inx s = .next
      { s with x := s.x + 1, flagZ := s.x + 1 == 0, flagN := (s.x + 1).getLsbD 7, cyclesRemaining := 1 } ∧
    exec .iny s = .next
      { s with y := s.y + 1, flagZ := s.y + 1 == 0, flagN := (s.y + 1).getLsbD 7, cyclesRemaining := 1 } ∧
    exec .dex s = .next
      { s with x := s.x - 1, flagZ := s.x - 1 == 0, flagN := (s.x - 1).getLsbD 7, cyclesRemaining := 1 } ∧
    exec .dey s = .next
      { s with y := s.y - 1, flagZ := s.y - 1 == 0, flagN := (s.y - 1).getLsbD 7, cyclesRemaining := 1 }

/-! ## Branch, jump, subroutine -/

/-- R220 to R228: each branch with its opcode and condition. Not taken: two cycles, nothing else. Taken: `PC` goes to
the next instruction's address plus the signed displacement, three cycles, four when that is another page. -/
def Obligations.BranchResults : Prop :=
  ∀ (i : Instr) (s : State) (d op : Byte) (cond : Bool),
    (i = .bpl d ∧ op = 0x10 ∧ cond = !s.flagN) ∨ (i = .bmi d ∧ op = 0x30 ∧ cond = s.flagN) ∨
      (i = .bvc d ∧ op = 0x50 ∧ cond = !s.flagV) ∨ (i = .bvs d ∧ op = 0x70 ∧ cond = s.flagV) ∨
      (i = .bcc d ∧ op = 0x90 ∧ cond = !s.flagC) ∨ (i = .bcs d ∧ op = 0xB0 ∧ cond = s.flagC) ∨
      (i = .bne d ∧ op = 0xD0 ∧ cond = !s.flagZ) ∨ (i = .beq d ∧ op = 0xF0 ∧ cond = s.flagZ) →
    encode i = [op, d] ∧
    (cond = false → exec i s = .next { s with cyclesRemaining := 1 }) ∧
    (cond = true → ∃ ea : Word,
      (ea.toNat : Int) = ((s.pc.toNat : Int) + d.toInt) % 65536 ∧
      exec i s = .next
        { s with pc := ea, cyclesRemaining := if ea.toNat / 256 = s.pc.toNat / 256 then 2 else 3 })

/-- R229: `JMP` sets `PC` to the resolved address, the operand word or the word read through the pointer, and changes
nothing else; three or five cycles. -/
def Obligations.JumpResults : Prop :=
  FormsAre .jmp [(.abs, ⟨0x4C, 3, .never⟩), (.ind, ⟨0x6C, 5, .never⟩)] ∧
  (∀ (w : Word) (s : State), exec (.jmp (.abs w)) s = .next { s with pc := w, cyclesRemaining := 2 }) ∧
  (∀ (w aHigh : Word) (s : State), aHigh.toNat = w.toNat / 256 * 256 + (w.toNat + 1) % 256 →
    ∃ l h : Byte,
      l = s.peek w ∧ h = ({ s with trace := .read w l :: s.trace }).peek aHigh ∧
      exec (.jmp (.ind w)) s = .next
        { s with
          pc := w16 h l, cyclesRemaining := 4
          trace := .read aHigh h :: .read w l :: s.trace })

/-- R230, R231: `JSR` pushes the address of its last byte, high byte first, and goes to the operand word; `RTS` pulls a
word, low byte first, and goes to it plus one. -/
def Obligations.SubroutineResults : Prop :=
  ∀ (w : Word) (s : State),
    encode (.jsr w) = [0x20, lo w, hi w] ∧
    exec (.jsr w) s = .next
      { (s.push (hi (s.pc - 1))).push (lo (s.pc - 1)) with pc := w, cyclesRemaining := 5 } ∧
    encode .rts = [0x60] ∧
    ∃ (l h : Byte) (s1 s2 : State),
      s.pull = (l, s1) ∧ s1.pull = (h, s2) ∧
      exec .rts s = .next { s2 with pc := w16 h l + 1, cyclesRemaining := 5 }

/-- R230 to R232: over a plain stack page `RTS` right after `JSR` returns to the instruction after the `JSR`, with `SP`,
the registers and the flags as they were, whatever `SP` was. -/
def Obligations.JsrThenRtsReturns : Prop :=
  ∀ (w : Word) (s : State), s.PlainStack → s.mem.wf = true →
    ∃ t u, exec (.jsr w) s = .next t ∧ t.pc = w ∧ exec .rts t = .next u ∧
      u = { s with mem := u.mem, cyclesRemaining := 5, trace := u.trace }

/-! ## Stack, flag, system -/

/-- R240 to R243: the pushes and pulls, their opcodes and cycles. -/
def Obligations.StackInstructionResults : Prop :=
  ∀ s : State,
    encode .pha = [0x48] ∧ encode .php = [0x08] ∧ encode .pla = [0x68] ∧ encode .plp = [0x28] ∧
    exec .pha s = .next
      { s with
        mem := s.stored (0x0100 + zext16 s.sp) s.a, sp := s.sp - 1, cyclesRemaining := 2
        trace := .write (0x0100 + zext16 s.sp) s.a :: s.trace } ∧
    exec .php s = .next
      { s with
        mem := s.stored (0x0100 + zext16 s.sp) (s.pByte true), sp := s.sp - 1, cyclesRemaining := 2
        trace := .write (0x0100 + zext16 s.sp) (s.pByte true) :: s.trace } ∧
    ∃ (top : Word) (v : Byte), top = 0x0100 + zext16 (s.sp + 1) ∧ v = s.peek top ∧
      exec .pla s = .next
        { s with
          a := v, sp := s.sp + 1, flagZ := v == 0, flagN := v.getLsbD 7, cyclesRemaining := 3
          trace := .read top v :: s.trace } ∧
      exec .plp s = .next
        { s with
          sp := s.sp + 1
          flagN := v.getLsbD 7, flagV := v.getLsbD 6, flagD := v.getLsbD 3, flagI := v.getLsbD 2
          flagZ := v.getLsbD 1, flagC := v.getLsbD 0
          cyclesRemaining := 3
          trace := .read top v :: s.trace }

/-- R240, R243: over a plain stack page `PLA` undoes `PHA` whatever `A` was made in between, and `PLP` restores all six
flags `PHP` saved whatever they were made; `SP` is as before. -/
def Obligations.PushThenPullRestores : Prop :=
  ∀ (s : State) (v : Byte), s.PlainStack → s.mem.wf = true →
    (∃ t u, exec .pha s = .next t ∧ exec .pla (t.setA v) = .next u ∧ u.a = s.a ∧ u.sp = s.sp) ∧
    (∃ t u, exec .php s = .next t ∧ exec .plp (t.setP v) = .next u ∧ u.sp = s.sp ∧
      u.flagN = s.flagN ∧ u.flagV = s.flagV ∧ u.flagD = s.flagD ∧ u.flagI = s.flagI ∧ u.flagZ = s.flagZ ∧
      u.flagC = s.flagC)

/-- R244 to R251: each flag instruction writes its one flag, `NOP` nothing; opcodes and two cycles. -/
def Obligations.FlagInstructionResults : Prop :=
  ∀ s : State,
    encode .clc = [0x18] ∧ encode .sec = [0x38] ∧ encode .cli = [0x58] ∧ encode .sei = [0x78] ∧
    encode .clv = [0xB8] ∧ encode .cld = [0xD8] ∧ encode .sed = [0xF8] ∧ encode .nop = [0xEA] ∧
    exec .clc s = .next { s with flagC := false, cyclesRemaining := 1 } ∧
    exec .sec s = .next { s with flagC := true, cyclesRemaining := 1 } ∧
    exec .cli s = .next { s with flagI := false, cyclesRemaining := 1 } ∧
    exec .sei s = .next { s with flagI := true, cyclesRemaining := 1 } ∧
    exec .clv s = .next { s with flagV := false, cyclesRemaining := 1 } ∧
    exec .cld s = .next { s with flagD := false, cyclesRemaining := 1 } ∧
    exec .sed s = .next { s with flagD := true, cyclesRemaining := 1 } ∧
    exec .nop s = .next { s with cyclesRemaining := 1 }

/-- R252, R253: `BRK` takes the entry of R310 with bit 4 set and the address after the padding byte, seven cycles; `RTI`
pulls the status, then the address, low byte first, and adds nothing, six cycles. -/
def Obligations.BreakAndReturnResults : Prop :=
  ∀ s : State,
    encode .brk = [0x00] ∧ encode .rti = [0x40] ∧
    exec .brk s = .next { s.afterEntry 0xFFFE (s.pc + 1) true with cyclesRemaining := 6 } ∧
    ∃ (p l h : Byte) (s1 s2 s3 : State),
      s.pull = (p, s1) ∧ (s1.setP p).pull = (l, s2) ∧ s2.pull = (h, s3) ∧
      exec .rti s = .next { s3 with pc := w16 h l, cyclesRemaining := 5 }

/-- R309, R314, R315: over a plain stack page `RTI` right after an entry restores the interrupted `PC`, `SP` and all six
flags, `I` among them; after `BRK` the address is the one past the padding byte. -/
def Obligations.EntryThenRtiResumes : Prop :=
  ∀ s : State, s.PlainStack → s.mem.wf = true →
    (∃ t u, exec .brk s = .next t ∧ exec .rti t = .next u ∧
      u = { s with pc := s.pc + 1, mem := u.mem, cyclesRemaining := 5, trace := u.trace }) ∧
    (∃ u, exec .rti s.takeNmi = .next u ∧
      u = { s with nmiPending := false, mem := u.mem, cyclesRemaining := 5, trace := u.trace }) ∧
    (∃ u, exec .rti s.takeIrq = .next u ∧
      u = { s with irqPending := false, mem := u.mem, cyclesRemaining := 5, trace := u.trace })

/-! ## Undocumented opcodes -/

/-- R265 to R268, R272, R273: the read-modify-write combinations: one read, one write of the modified byte, then the
second effect with the flags the first produced. -/
def Obligations.UndocumentedModifyResults : Prop :=
  FormsAre .slo [(.zp, ⟨0x07, 5, .never⟩), (.zpx, ⟨0x17, 6, .never⟩), (.abs, ⟨0x0F, 6, .never⟩),
    (.abx, ⟨0x1F, 7, .never⟩), (.aby, ⟨0x1B, 7, .never⟩), (.izx, ⟨0x03, 8, .never⟩), (.izy, ⟨0x13, 8, .never⟩)] ∧
  FormsAre .rla [(.zp, ⟨0x27, 5, .never⟩), (.zpx, ⟨0x37, 6, .never⟩), (.abs, ⟨0x2F, 6, .never⟩),
    (.abx, ⟨0x3F, 7, .never⟩), (.aby, ⟨0x3B, 7, .never⟩), (.izx, ⟨0x23, 8, .never⟩), (.izy, ⟨0x33, 8, .never⟩)] ∧
  FormsAre .sre [(.zp, ⟨0x47, 5, .never⟩), (.zpx, ⟨0x57, 6, .never⟩), (.abs, ⟨0x4F, 6, .never⟩),
    (.abx, ⟨0x5F, 7, .never⟩), (.aby, ⟨0x5B, 7, .never⟩), (.izx, ⟨0x43, 8, .never⟩), (.izy, ⟨0x53, 8, .never⟩)] ∧
  FormsAre .rra [(.zp, ⟨0x67, 5, .never⟩), (.zpx, ⟨0x77, 6, .never⟩), (.abs, ⟨0x6F, 6, .never⟩),
    (.abx, ⟨0x7F, 7, .never⟩), (.aby, ⟨0x7B, 7, .never⟩), (.izx, ⟨0x63, 8, .never⟩), (.izy, ⟨0x73, 8, .never⟩)] ∧
  FormsAre .dcp [(.zp, ⟨0xC7, 5, .never⟩), (.zpx, ⟨0xD7, 6, .never⟩), (.abs, ⟨0xCF, 6, .never⟩),
    (.abx, ⟨0xDF, 7, .never⟩), (.aby, ⟨0xDB, 7, .never⟩), (.izx, ⟨0xC3, 8, .never⟩), (.izy, ⟨0xD3, 8, .never⟩)] ∧
  FormsAre .isc [(.zp, ⟨0xE7, 5, .never⟩), (.zpx, ⟨0xF7, 6, .never⟩), (.abs, ⟨0xEF, 6, .never⟩),
    (.abx, ⟨0xFF, 7, .never⟩), (.aby, ⟨0xFB, 7, .never⟩), (.izx, ⟨0xE3, 8, .never⟩), (.izy, ⟨0xF3, 8, .never⟩)] ∧
  ∀ (i : Instr) (o : Operand) (s : State), i.WellFormed →
    i = .slo o ∨ i = .rla o ∨ i = .sre o ∨ i = .rra o ∨ i = .dcp o ∨ i = .isc o →
    ∃ ea m tr, s.ResolvesTo o ea tr ∧ m = ({ s with trace := tr }).peek ea ∧
      ∀ (r : Byte) (s1 : State),
        s1 =
          { s with
            mem := s.stored ea r, cyclesRemaining := cyclesAfter i s
            trace := .write ea r :: .read ea m :: tr } →
        (i = .slo o → r.toNat = m.toNat * 2 % 256 →
          exec i s = .next
            { s1 with
              a := s.a ||| r, flagC := m.getLsbD 7, flagZ := (s.a ||| r) == 0, flagN := (s.a ||| r).getLsbD 7 }) ∧
        (i = .rla o → r.toNat = m.toNat * 2 % 256 + s.flagC.toNat →
          exec i s = .next
            { s1 with
              a := s.a &&& r, flagC := m.getLsbD 7, flagZ := (s.a &&& r) == 0, flagN := (s.a &&& r).getLsbD 7 }) ∧
        (i = .sre o → r.toNat = m.toNat / 2 →
          exec i s = .next
            { s1 with
              a := s.a ^^^ r, flagC := m.getLsbD 0, flagZ := (s.a ^^^ r) == 0, flagN := (s.a ^^^ r).getLsbD 7 }) ∧
        (i = .rra o → r.toNat = m.toNat / 2 + 128 * s.flagC.toNat →
          exec i s = .next (({ s1 with flagC := m.getLsbD 0 }).addWithCarry r)) ∧
        (i = .dcp o → r = m - 1 →
          exec i s = .next
            { s1 with flagC := r.toNat ≤ s.a.toNat, flagZ := s.a == r, flagN := (s.a - r).getLsbD 7 }) ∧
        (i = .isc o → r = m + 1 → exec i s = .next (s1.addWithCarry (r ^^^ 0xFF)))

/-- R274 to R276, R278, R283: `ANC`, `ALR`, `ARR`, `AXS` and `LAS`, their opcodes, results and flags. -/
def Obligations.UndocumentedReadResults : Prop :=
  ∀ (s : State) (d op : Byte) (w : Word),
    (op = 0x0B ∨ op = 0x2B →
      encode (.anc op d) = [op, d] ∧
      exec (.anc op d) s = .next
        { s with
          a := s.a &&& d, flagZ := (s.a &&& d) == 0, flagN := (s.a &&& d).getLsbD 7
          flagC := (s.a &&& d).getLsbD 7, cyclesRemaining := 1 }) ∧
    encode (.alr d) = [0x4B, d] ∧
    exec (.alr d) s = .next
      { s with
        a := (s.a &&& d) >>> 1, flagC := (s.a &&& d).getLsbD 0, flagZ := ((s.a &&& d) >>> 1) == 0, flagN := false
        cyclesRemaining := 1 } ∧
    encode (.arr d) = [0x6B, d] ∧
    (∃ r : Byte, r.toNat = (s.a &&& d).toNat / 2 + 128 * s.flagC.toNat ∧
      exec (.arr d) s = .next
        { s with
          a := r, flagZ := r == 0, flagN := r.getLsbD 7, flagC := r.getLsbD 6
          flagV := r.getLsbD 6 ^^ r.getLsbD 5, cyclesRemaining := 1 }) ∧
    encode (.axs d) = [0xCB, d] ∧
    exec (.axs d) s = .next
      { s with
        x := (s.a &&& s.x) - d, flagC := d.toNat ≤ (s.a &&& s.x).toNat, flagZ := (s.a &&& s.x) == d
        flagN := ((s.a &&& s.x) - d).getLsbD 7, cyclesRemaining := 1 } ∧
    encode (.las w) = [0xBB, lo w, hi w] ∧
    (∃ m tr t, s.Reads (.aby w) m tr ∧ t = m &&& s.sp ∧
      exec (.las w) s = .next
        { s with
          a := t, x := t, sp := t, flagZ := t == 0, flagN := t.getLsbD 7, trace := tr
          cyclesRemaining := if (w.toNat + s.y.toNat) % 65536 / 256 = w.toNat / 256 then 3 else 4 })

/-- R271, R277: `LAX #` and `XAA`, for whatever byte `MAGIC` is (log 5). -/
def Obligations.UnstableImmediateResults : Prop :=
  ∀ (s : State) (d t u : Byte), t = (s.a ||| Config.magic) &&& d → u = (s.a ||| Config.magic) &&& s.x &&& d →
    encode (.laxImm d) = [0xAB, d] ∧
    exec (.laxImm d) s = .next
      { s with a := t, x := t, flagZ := t == 0, flagN := t.getLsbD 7, cyclesRemaining := 1 } ∧
    encode (.xaa d) = [0x8B, d] ∧
    exec (.xaa d) s = .next
      { s with a := u, flagZ := u == 0, flagN := u.getLsbD 7, cyclesRemaining := 1 } ∧
    (s.a = 0xFF → u = s.x &&& d) ∧ (d = 0 → u = 0)

/-- R284: the 27 undocumented `NOP` encodings, their modes and cycles, and no other byte. They change no register, flag
or memory byte; with a memory mode they read the address once, with an Immediate operand nothing more than the fetch
did (log 6). -/
def Obligations.UndocumentedNopResults : Prop :=
  (∀ op ∈ ([0x1A, 0x3A, 0x5A, 0x7A, 0xDA, 0xFA] : List Byte), FormsAre (.nopU op) [(.imp, ⟨op, 2, .never⟩)]) ∧
  (∀ op ∈ ([0x80, 0x82, 0x89, 0xC2, 0xE2] : List Byte), FormsAre (.nopU op) [(.imm, ⟨op, 2, .never⟩)]) ∧
  (∀ op ∈ ([0x04, 0x44, 0x64] : List Byte), FormsAre (.nopU op) [(.zp, ⟨op, 3, .never⟩)]) ∧
  (∀ op ∈ ([0x14, 0x34, 0x54, 0x74, 0xD4, 0xF4] : List Byte), FormsAre (.nopU op) [(.zpx, ⟨op, 4, .never⟩)]) ∧
  FormsAre (.nopU 0x0C) [(.abs, ⟨0x0C, 4, .never⟩)] ∧
  (∀ op ∈ ([0x1C, 0x3C, 0x5C, 0x7C, 0xDC, 0xFC] : List Byte), FormsAre (.nopU op) [(.abx, ⟨op, 4, .cross⟩)]) ∧
  (∀ op ∉ ([0x1A, 0x3A, 0x5A, 0x7A, 0xDA, 0xFA, 0x80, 0x82, 0x89, 0xC2, 0xE2, 0x04, 0x44, 0x64, 0x14, 0x34, 0x54,
    0x74, 0xD4, 0xF4, 0x0C, 0x1C, 0x3C, 0x5C, 0x7C, 0xDC, 0xFC] : List Byte), FormsAre (.nopU op) []) ∧
  ∀ (op : Byte) (o : Operand) (s : State), (Instr.nopU op o).WellFormed →
    (o = .imp → exec (.nopU op o) s = .next { s with cyclesRemaining := 1 }) ∧
    (∀ d, o = .imm d → exec (.nopU op o) s = .next { s with cyclesRemaining := 1 }) ∧
    (o ≠ .imp → ∃ m tr, s.Reads o m tr ∧
      exec (.nopU op o) s = .next { s with cyclesRemaining := cyclesAfter (.nopU op o) s, trace := tr })

/-- R279 to R282: the high-byte stores: the register value ANDed with the base's page plus one, stored at `ea`, or, when
the index crossed a page, at `ea` with its page ANDed with the stored value (the spec's decision D19; log 11). -/
def Obligations.HighByteStoreResults : Prop :=
  FormsAre .ahx [(.aby, ⟨0x9F, 5, .never⟩), (.izy, ⟨0x93, 6, .never⟩)] ∧
  (∀ w : Word, encode (.shy w) = [0x9C, lo w, hi w] ∧ encode (.shx w) = [0x9E, lo w, hi w] ∧
    encode (.tas w) = [0x9B, lo w, hi w]) ∧
  ∀ (i : Instr) (s : State) (v0 newSP : Byte) (n : Nat),
    ((∃ w, i = .ahx (.aby w)) ∧ v0 = s.a &&& s.x ∧ newSP = s.sp ∧ n = 4) ∨
      ((∃ d, i = .ahx (.izy d)) ∧ v0 = s.a &&& s.x ∧ newSP = s.sp ∧ n = 5) ∨
      ((∃ w, i = .shy w) ∧ v0 = s.y ∧ newSP = s.sp ∧ n = 4) ∨
      ((∃ w, i = .shx w) ∧ v0 = s.x ∧ newSP = s.sp ∧ n = 4) ∨
      ((∃ w, i = .tas w) ∧ v0 = s.a &&& s.x ∧ newSP = v0 ∧ n = 4) →
    highStoreValue s i = some v0 ∧
    ∃ (ea base addr : Word) (crossed : Bool) (v : Byte) (tr : List BusTxn),
      resolve i.operand s = (⟨some ea, some base, crossed⟩, { s with trace := tr }) ∧
      v = v0 &&& (hi base + 1) ∧
      addr = (if crossed then w16 (hi ea &&& v) (lo ea) else ea) ∧
      s.highStoreAddress i.operand v0 = some addr ∧
      exec i s = .next
        { s with mem := s.stored addr v, sp := newSP, cyclesRemaining := n, trace := .write addr v :: tr }

/-! ## Whole-machine rules -/

/-- R32, with the "Written by" lists of R24 to R27, R30, R31: no instruction changes a flag its rule does not name. -/
def Obligations.FlagsChangeOnlyWhereNamed : Prop :=
  ∀ (i : Instr) (s t : State), exec i s = .next t →
    (writesC i = false → t.flagC = s.flagC) ∧
    (writesZN i = false → t.flagZ = s.flagZ ∧ t.flagN = s.flagN) ∧
    (writesI i = false → t.flagI = s.flagI) ∧
    (writesD i = false → t.flagD = s.flagD) ∧
    (writesV i = false → t.flagV = s.flagV)

/-- R20 to R22: no instruction changes a register its rule does not name; `PC` is left at the next instruction by every
instruction that does not transfer control. -/
def Obligations.RegistersChangeOnlyWhereNamed : Prop :=
  ∀ (i : Instr) (s t : State), exec i s = .next t →
    (writesA i = false → t.a = s.a) ∧
    (writesX i = false → t.x = s.x) ∧
    (writesY i = false → t.y = s.y) ∧
    (writesSP i = false → t.sp = s.sp) ∧
    (transfersControl i = false → t.pc = s.pc)

/-- R8, R284: an instruction outside the store, read-modify-write and push classes leaves every byte of memory as it was;
what answers on the bus (the model's own field, log 2) never changes; only `INVALID` writes the fault latch. -/
def Obligations.MemoryChangesOnlyForStores : Prop :=
  ∀ (i : Instr) (s t : State), exec i s = .next t →
    (writesMem i = false → ∀ a, t.mem.read a = s.mem.read a) ∧
    t.busMap = s.busMap ∧
    ((∀ op, i ≠ .invalid op) → t.fault = s.fault)

/-- The frame in memory of every instruction that stores, in terms of single bytes: the store and read-modify-write
classes change at most the byte at the resolved address, the high-byte stores at most the byte at the address their
rule computes, and the pushes at most their one, two or three slots under `SP`. -/
def Obligations.StoredBytesAreTheOnlyChange : Prop :=
  ∀ (i : Instr) (s t : State) (a : Nat), s.mem.wf = true → exec i s = .next t →
    (∀ ea s1,
      (∃ o, i = .sta o ∨ i = .stx o ∨ i = .sty o ∨ i = .sax o ∨
        i = .asl o ∨ i = .lsr o ∨ i = .rol o ∨ i = .ror o ∨ i = .inc o ∨ i = .dec o ∨
        i = .slo o ∨ i = .rla o ∨ i = .sre o ∨ i = .rra o ∨ i = .dcp o ∨ i = .isc o) →
      s.addressOf i.operand = some (ea, s1) → a ≠ ea.toNat → t.mem.read a = s.mem.read a) ∧
    (∀ v0 ea, highStoreValue s i = some v0 → s.highStoreAddress i.operand v0 = some ea → a ≠ ea.toNat →
      t.mem.read a = s.mem.read a) ∧
    (i = .pha ∨ i = .php → a ≠ (stackAddr s.sp).toNat → t.mem.read a = s.mem.read a) ∧
    ((∃ w, i = .jsr w) → a ≠ (stackAddr s.sp).toNat → a ≠ (stackAddr (s.sp - 1)).toNat →
      t.mem.read a = s.mem.read a) ∧
    (i = .brk → a ≠ (stackAddr s.sp).toNat → a ≠ (stackAddr (s.sp - 1)).toNat →
      a ≠ (stackAddr (s.sp - 2)).toNat → t.mem.read a = s.mem.read a)

/-- R27, R339: every instruction but the two that push the status byte does the same whatever `D` holds, and leaves `D`
unless its rule writes it. -/
def Obligations.DecimalFlagIsInert : Prop :=
  ∀ (i : Instr) (s t : State) (b : Bool), i ≠ .php → i ≠ .brk → exec i s = .next t →
    exec i { s with flagD := b } = .next { t with flagD := if writesD i then t.flagD else b }

/-- R35 to R37: no instruction's effect depends on `cyclesRemaining` or on the interrupt latches, and none writes the
latches. -/
def Obligations.HiddenStateIsNotRead : Prop :=
  ∀ (i : Instr) (s t : State) (n : Nat) (p q : Bool), (∀ op, i ≠ .invalid op) → exec i s = .next t →
    exec i { s with cyclesRemaining := n, nmiPending := p, irqPending := q } =
      .next { t with nmiPending := p, irqPending := q } ∧
    t.nmiPending = s.nmiPending ∧ t.irqPending = s.irqPending
end

