-- ==== Sys2Proof/Laws/PerInstr.lean ====
section
/-! SUPPORT. Statements about each instruction as syntax, one lemma for each constructor. -/

namespace Sys2Proof.Laws.FormMatches

/-- The two copies of the opcode table agree on an instruction: its own rule gives it a form exactly when it is a row of
the table (R98), and the row of R95 at the form's opcode byte has the form's base cycles and penalty. -/
def Statement (i : Instr) : Prop :=
  i.wellFormed = i.form.isSome ∧
  ∀ f, i.form = some f → (opcodeRow f.opcode).cycles = f.cycles ∧ (opcodeRow f.opcode).penalty = f.penalty

/-- The undocumented `NOP`s of a mode: their opcode bytes are a finite list. -/
theorem nop_rows (m : Mode) : ∀ op ∈ nopOpcodes m,
    (opcodeRow op).cycles = (nopTiming m).1 ∧ (opcodeRow op).penalty = (nopTiming m).2 := by
  cases m <;> decide

theorem invalid_rows : ∀ op ∈ invalidOpcodes, (opcodeRow op).cycles = 0 ∧ (opcodeRow op).penalty = .never := by
  decide

theorem anc_rows : ∀ op ∈ ([0x0B, 0x2B] : List Byte),
    (opcodeRow op).cycles = 2 ∧ (opcodeRow op).penalty = .never := by
  decide

theorem lda (o : Operand) : Statement (.lda o) := by
  cases o <;> exact ⟨rfl, by rintro f ⟨⟩ <;> exact ⟨rfl, rfl⟩⟩

theorem ldx (o : Operand) : Statement (.ldx o) := by
  cases o <;> exact ⟨rfl, by rintro f ⟨⟩ <;> exact ⟨rfl, rfl⟩⟩

theorem ldy (o : Operand) : Statement (.ldy o) := by
  cases o <;> exact ⟨rfl, by rintro f ⟨⟩ <;> exact ⟨rfl, rfl⟩⟩

theorem sta (o : Operand) : Statement (.sta o) := by
  cases o <;> exact ⟨rfl, by rintro f ⟨⟩ <;> exact ⟨rfl, rfl⟩⟩

theorem stx (o : Operand) : Statement (.stx o) := by
  cases o <;> exact ⟨rfl, by rintro f ⟨⟩ <;> exact ⟨rfl, rfl⟩⟩

theorem sty (o : Operand) : Statement (.sty o) := by
  cases o <;> exact ⟨rfl, by rintro f ⟨⟩ <;> exact ⟨rfl, rfl⟩⟩

theorem tax : Statement (.tax) := ⟨rfl, by rintro f ⟨⟩; exact ⟨rfl, rfl⟩⟩

theorem tay : Statement (.tay) := ⟨rfl, by rintro f ⟨⟩; exact ⟨rfl, rfl⟩⟩

theorem txa : Statement (.txa) := ⟨rfl, by rintro f ⟨⟩; exact ⟨rfl, rfl⟩⟩

theorem tya : Statement (.tya) := ⟨rfl, by rintro f ⟨⟩; exact ⟨rfl, rfl⟩⟩

theorem tsx : Statement (.tsx) := ⟨rfl, by rintro f ⟨⟩; exact ⟨rfl, rfl⟩⟩

theorem txs : Statement (.txs) := ⟨rfl, by rintro f ⟨⟩; exact ⟨rfl, rfl⟩⟩

theorem ora (o : Operand) : Statement (.ora o) := by
  cases o <;> exact ⟨rfl, by rintro f ⟨⟩ <;> exact ⟨rfl, rfl⟩⟩

theorem and (o : Operand) : Statement (.and o) := by
  cases o <;> exact ⟨rfl, by rintro f ⟨⟩ <;> exact ⟨rfl, rfl⟩⟩

theorem eor (o : Operand) : Statement (.eor o) := by
  cases o <;> exact ⟨rfl, by rintro f ⟨⟩ <;> exact ⟨rfl, rfl⟩⟩

theorem adc (o : Operand) : Statement (.adc o) := by
  cases o <;> exact ⟨rfl, by rintro f ⟨⟩ <;> exact ⟨rfl, rfl⟩⟩

theorem sbc (o : Operand) : Statement (.sbc o) := by
  cases o <;> exact ⟨rfl, by rintro f ⟨⟩ <;> exact ⟨rfl, rfl⟩⟩

theorem cmp (o : Operand) : Statement (.cmp o) := by
  cases o <;> exact ⟨rfl, by rintro f ⟨⟩ <;> exact ⟨rfl, rfl⟩⟩

theorem cpx (o : Operand) : Statement (.cpx o) := by
  cases o <;> exact ⟨rfl, by rintro f ⟨⟩ <;> exact ⟨rfl, rfl⟩⟩

theorem cpy (o : Operand) : Statement (.cpy o) := by
  cases o <;> exact ⟨rfl, by rintro f ⟨⟩ <;> exact ⟨rfl, rfl⟩⟩

theorem bit (o : Operand) : Statement (.bit o) := by
  cases o <;> exact ⟨rfl, by rintro f ⟨⟩ <;> exact ⟨rfl, rfl⟩⟩

theorem asl (o : Operand) : Statement (.asl o) := by
  cases o <;> exact ⟨rfl, by rintro f ⟨⟩ <;> exact ⟨rfl, rfl⟩⟩

theorem lsr (o : Operand) : Statement (.lsr o) := by
  cases o <;> exact ⟨rfl, by rintro f ⟨⟩ <;> exact ⟨rfl, rfl⟩⟩

theorem rol (o : Operand) : Statement (.rol o) := by
  cases o <;> exact ⟨rfl, by rintro f ⟨⟩ <;> exact ⟨rfl, rfl⟩⟩

theorem ror (o : Operand) : Statement (.ror o) := by
  cases o <;> exact ⟨rfl, by rintro f ⟨⟩ <;> exact ⟨rfl, rfl⟩⟩

theorem inc (o : Operand) : Statement (.inc o) := by
  cases o <;> exact ⟨rfl, by rintro f ⟨⟩ <;> exact ⟨rfl, rfl⟩⟩

theorem dec (o : Operand) : Statement (.dec o) := by
  cases o <;> exact ⟨rfl, by rintro f ⟨⟩ <;> exact ⟨rfl, rfl⟩⟩

theorem inx : Statement (.inx) := ⟨rfl, by rintro f ⟨⟩; exact ⟨rfl, rfl⟩⟩

theorem iny : Statement (.iny) := ⟨rfl, by rintro f ⟨⟩; exact ⟨rfl, rfl⟩⟩

theorem dex : Statement (.dex) := ⟨rfl, by rintro f ⟨⟩; exact ⟨rfl, rfl⟩⟩

theorem dey : Statement (.dey) := ⟨rfl, by rintro f ⟨⟩; exact ⟨rfl, rfl⟩⟩

theorem bpl (d : Byte) : Statement (.bpl d) := ⟨rfl, by rintro f ⟨⟩; exact ⟨rfl, rfl⟩⟩

theorem bmi (d : Byte) : Statement (.bmi d) := ⟨rfl, by rintro f ⟨⟩; exact ⟨rfl, rfl⟩⟩

theorem bvc (d : Byte) : Statement (.bvc d) := ⟨rfl, by rintro f ⟨⟩; exact ⟨rfl, rfl⟩⟩

theorem bvs (d : Byte) : Statement (.bvs d) := ⟨rfl, by rintro f ⟨⟩; exact ⟨rfl, rfl⟩⟩

theorem bcc (d : Byte) : Statement (.bcc d) := ⟨rfl, by rintro f ⟨⟩; exact ⟨rfl, rfl⟩⟩

theorem bcs (d : Byte) : Statement (.bcs d) := ⟨rfl, by rintro f ⟨⟩; exact ⟨rfl, rfl⟩⟩

theorem bne (d : Byte) : Statement (.bne d) := ⟨rfl, by rintro f ⟨⟩; exact ⟨rfl, rfl⟩⟩

theorem beq (d : Byte) : Statement (.beq d) := ⟨rfl, by rintro f ⟨⟩; exact ⟨rfl, rfl⟩⟩

theorem jmp (o : Operand) : Statement (.jmp o) := by
  cases o <;> exact ⟨rfl, by rintro f ⟨⟩ <;> exact ⟨rfl, rfl⟩⟩

theorem jsr (w : Word) : Statement (.jsr w) := ⟨rfl, by rintro f ⟨⟩; exact ⟨rfl, rfl⟩⟩

theorem rts : Statement (.rts) := ⟨rfl, by rintro f ⟨⟩; exact ⟨rfl, rfl⟩⟩

theorem pha : Statement (.pha) := ⟨rfl, by rintro f ⟨⟩; exact ⟨rfl, rfl⟩⟩

theorem php : Statement (.php) := ⟨rfl, by rintro f ⟨⟩; exact ⟨rfl, rfl⟩⟩

theorem pla : Statement (.pla) := ⟨rfl, by rintro f ⟨⟩; exact ⟨rfl, rfl⟩⟩

theorem plp : Statement (.plp) := ⟨rfl, by rintro f ⟨⟩; exact ⟨rfl, rfl⟩⟩

theorem clc : Statement (.clc) := ⟨rfl, by rintro f ⟨⟩; exact ⟨rfl, rfl⟩⟩

theorem sec : Statement (.sec) := ⟨rfl, by rintro f ⟨⟩; exact ⟨rfl, rfl⟩⟩

theorem cli : Statement (.cli) := ⟨rfl, by rintro f ⟨⟩; exact ⟨rfl, rfl⟩⟩

theorem sei : Statement (.sei) := ⟨rfl, by rintro f ⟨⟩; exact ⟨rfl, rfl⟩⟩

theorem clv : Statement (.clv) := ⟨rfl, by rintro f ⟨⟩; exact ⟨rfl, rfl⟩⟩

theorem cld : Statement (.cld) := ⟨rfl, by rintro f ⟨⟩; exact ⟨rfl, rfl⟩⟩

theorem sed : Statement (.sed) := ⟨rfl, by rintro f ⟨⟩; exact ⟨rfl, rfl⟩⟩

theorem nop : Statement (.nop) := ⟨rfl, by rintro f ⟨⟩; exact ⟨rfl, rfl⟩⟩

theorem brk : Statement (.brk) := ⟨rfl, by rintro f ⟨⟩; exact ⟨rfl, rfl⟩⟩

theorem rti : Statement (.rti) := ⟨rfl, by rintro f ⟨⟩; exact ⟨rfl, rfl⟩⟩

theorem slo (o : Operand) : Statement (.slo o) := by
  cases o <;> exact ⟨rfl, by rintro f ⟨⟩ <;> exact ⟨rfl, rfl⟩⟩

theorem rla (o : Operand) : Statement (.rla o) := by
  cases o <;> exact ⟨rfl, by rintro f ⟨⟩ <;> exact ⟨rfl, rfl⟩⟩

theorem sre (o : Operand) : Statement (.sre o) := by
  cases o <;> exact ⟨rfl, by rintro f ⟨⟩ <;> exact ⟨rfl, rfl⟩⟩

theorem rra (o : Operand) : Statement (.rra o) := by
  cases o <;> exact ⟨rfl, by rintro f ⟨⟩ <;> exact ⟨rfl, rfl⟩⟩

theorem dcp (o : Operand) : Statement (.dcp o) := by
  cases o <;> exact ⟨rfl, by rintro f ⟨⟩ <;> exact ⟨rfl, rfl⟩⟩

theorem isc (o : Operand) : Statement (.isc o) := by
  cases o <;> exact ⟨rfl, by rintro f ⟨⟩ <;> exact ⟨rfl, rfl⟩⟩

theorem sax (o : Operand) : Statement (.sax o) := by
  cases o <;> exact ⟨rfl, by rintro f ⟨⟩ <;> exact ⟨rfl, rfl⟩⟩

theorem lax (o : Operand) : Statement (.lax o) := by
  cases o <;> exact ⟨rfl, by rintro f ⟨⟩ <;> exact ⟨rfl, rfl⟩⟩

theorem laxImm (d : Byte) : Statement (.laxImm d) := ⟨rfl, by rintro f ⟨⟩; exact ⟨rfl, rfl⟩⟩

theorem las (w : Word) : Statement (.las w) := ⟨rfl, by rintro f ⟨⟩; exact ⟨rfl, rfl⟩⟩

theorem anc (opcode : Byte) (d : Byte) : Statement (.anc opcode d) := by
  refine ⟨?_, fun f h => ?_⟩
  · simp only [Instr.wellFormed, Instr.form]
    split <;> simp_all
  · simp only [Instr.form] at h
    split at h
    · cases h
      exact anc_rows opcode ‹_›
    · cases h

theorem alr (d : Byte) : Statement (.alr d) := ⟨rfl, by rintro f ⟨⟩; exact ⟨rfl, rfl⟩⟩

theorem arr (d : Byte) : Statement (.arr d) := ⟨rfl, by rintro f ⟨⟩; exact ⟨rfl, rfl⟩⟩

theorem xaa (d : Byte) : Statement (.xaa d) := ⟨rfl, by rintro f ⟨⟩; exact ⟨rfl, rfl⟩⟩

theorem axs (d : Byte) : Statement (.axs d) := ⟨rfl, by rintro f ⟨⟩; exact ⟨rfl, rfl⟩⟩

theorem ahx (o : Operand) : Statement (.ahx o) := by
  cases o <;> exact ⟨rfl, by rintro f ⟨⟩ <;> exact ⟨rfl, rfl⟩⟩

theorem shy (w : Word) : Statement (.shy w) := ⟨rfl, by rintro f ⟨⟩; exact ⟨rfl, rfl⟩⟩

theorem shx (w : Word) : Statement (.shx w) := ⟨rfl, by rintro f ⟨⟩; exact ⟨rfl, rfl⟩⟩

theorem tas (w : Word) : Statement (.tas w) := ⟨rfl, by rintro f ⟨⟩; exact ⟨rfl, rfl⟩⟩

theorem nopU (opcode : Byte) (o : Operand) : Statement (.nopU opcode o) := by
  refine ⟨?_, fun f h => ?_⟩
  · simp only [Instr.wellFormed, Instr.form]
    split <;> simp_all
  · simp only [Instr.form] at h
    split at h
    · cases h
      exact nop_rows o.mode opcode ‹_›
    · cases h

theorem sbcU (d : Byte) : Statement (.sbcU d) := ⟨rfl, by rintro f ⟨⟩; exact ⟨rfl, rfl⟩⟩

theorem invalid (opcode : Byte) : Statement (.invalid opcode) := by
  refine ⟨?_, fun f h => ?_⟩
  · simp only [Instr.wellFormed, Instr.form]
    split <;> simp_all
  · simp only [Instr.form] at h
    split at h
    · cases h
      exact invalid_rows opcode ‹_›
    · cases h

end Sys2Proof.Laws.FormMatches
end

