-- ==== Sys2Proof/Laws/Decode.lean ====
section
/-! SUPPORT. Facts about the opcode table that the decoder's proofs and the tests cite. -/

namespace Sys2Proof.Laws

/-- R93: the table has a row for every value of the opcode byte. -/
theorem opcodeTable_length : opcodeTable.length = 256 := by
  simp only [opcodeTable, List.length_append]
  rfl

/-- `opcodeRow` is the row of that number; its default is never used. -/
theorem opcodeRow_eq (op : Byte) : opcodeTable[op.toNat]? = some (opcodeRow op) := by
  have h : op.toNat < opcodeTable.length := by rw [opcodeTable_length]; exact op.isLt
  simp [opcodeRow, List.getD, h]

/-- The table word's bytes are three bytes of the number, the first one lowest. -/
theorem tableByte_toNat (nbits w k : Nat) : (tableByte nbits w k).toNat = w % 2 ^ nbits / 256 ^ k % 256 := by
  simp only [tableByte, BitVec.toNat_ofNat, Nat.shiftRight_eq_div_pow, Nat.pow_mul]

end Sys2Proof.Laws
end

