-- ==== Sys2Proof/Laws/Memory.lean ====
section
/-! SUPPORT. The laws of the contents: a read after a write, and that a write keeps the canonical form. -/

namespace Sys2Proof.Machine.Memory

theorem wfFrom_cons {least k : Nat} {v : Byte} {rest : Memory} :
    wfFrom least ((k, v) :: rest) = true ↔
      least ≤ k ∧ k < 65536 ∧ v ≠ unlisted ∧ wfFrom (k + 1) rest = true := by
  simp [wfFrom, and_assoc]

theorem wfFrom_mono {m : Memory} {least least' : Nat} (le : least' ≤ least) (h : wfFrom least m = true) :
    wfFrom least' m = true := by
  cases m with
  | nil => rfl
  | cons c rest =>
    rw [wfFrom_cons] at *
    exact ⟨le.trans h.1, h.2⟩

/-- Below the least listed address everything reads as unlisted. -/
theorem read_below {m : Memory} {least a : Nat} (h : wfFrom least m = true) (lt : a < least) :
    m.read a = unlisted := by
  induction m generalizing least with
  | nil => rfl
  | cons c rest ih =>
    obtain ⟨k, v⟩ := c
    rw [wfFrom_cons] at h
    have ne : k ≠ a := by omega
    simpa [read, ne] using ih h.2.2.2 (by omega)

theorem read_put {a b : Nat} {v : Byte} {rest : Memory} (h : wfFrom (a + 1) rest = true) :
    (put a v rest).read b = if b = a then v else rest.read b := by
  by_cases hb : b = a
  · subst hb
    by_cases hv : v = unlisted
    · simp [put, hv, read_below h (Nat.lt_succ_self b)]
    · simp [put, hv, read]
  · by_cases hv : v = unlisted
    · simp [put, hv, hb]
    · simp [put, hv, read, hb, Ne.symm hb]

theorem wfFrom_put {least a : Nat} {v : Byte} {rest : Memory} (h : wfFrom (a + 1) rest = true) (le : least ≤ a)
    (lt : a < 65536) : wfFrom least (put a v rest) = true := by
  by_cases hv : v = unlisted
  · simpa [put, hv] using wfFrom_mono (by omega) h
  · simp [put, hv, wfFrom_cons, le, lt, h]

/-- A write keeps the canonical form. -/
theorem wfFrom_write {m : Memory} {least a : Nat} {v : Byte} (h : wfFrom least m = true) (le : least ≤ a)
    (lt : a < 65536) : wfFrom least (m.write a v) = true := by
  induction m generalizing least with
  | nil => exact wfFrom_put rfl le lt
  | cons c rest ih =>
    obtain ⟨k, w⟩ := c
    have h' := wfFrom_cons.1 h
    unfold write
    split
    · exact wfFrom_put (wfFrom_cons.2 ⟨by omega, h'.2⟩) le lt
    · split
      · exact wfFrom_put (by simp [*]) le lt
      · exact wfFrom_cons.2 ⟨h'.1, h'.2.1, h'.2.2.1, ih h'.2.2.2 (by omega)⟩

theorem wf_write {m : Memory} {a : Word} {v : Byte} (h : m.wf = true) : (m.write a.toNat v).wf = true :=
  wfFrom_write h (Nat.zero_le _) a.isLt

/-- A read after a write: the value written at that address, and every other address as it was. -/
theorem read_write_of_wfFrom {m : Memory} {least a b : Nat} {v : Byte} (h : wfFrom least m = true) :
    (m.write a v).read b = if b = a then v else m.read b := by
  induction m generalizing least with
  | nil => exact read_put rfl
  | cons c rest ih =>
    obtain ⟨k, w⟩ := c
    have h' := wfFrom_cons.1 h
    unfold write
    split
    · exact read_put (wfFrom_cons.2 ⟨by omega, h'.2⟩)
    · split
      · rename_i hak
        subst hak
        rw [read_put h'.2.2.2]
        by_cases hb : b = a
        · simp [hb]
        · simp [hb, read, Ne.symm hb]
      · simp only [read]
        rw [ih h'.2.2.2]
        split
        · have ne : b ≠ a := by omega
          simp [ne]
        · rfl

theorem read_write {m : Memory} {a b : Nat} {v : Byte} (h : m.wf = true) :
    (m.write a v).read b = if b = a then v else m.read b := read_write_of_wfFrom h

theorem read_write_self {m : Memory} {a : Nat} {v : Byte} (h : m.wf = true) : (m.write a v).read a = v := by
  simp [read_write h]

theorem read_write_other {m : Memory} {a b : Nat} {v : Byte} (h : m.wf = true) (ne : b ≠ a) :
    (m.write a v).read b = m.read b := by
  simp [read_write h, ne]

end Sys2Proof.Machine.Memory
end

