-- ==== Sys2Proof/Laws/State.lean ====
section
/-! SUPPORT. One lemma for each field of each named update of the state, so that no proof unfolds an update. -/

namespace Sys2Proof.Machine.State

/-! ## `setA` -/

@[simp] theorem setA_a (v : Byte) (s : State) : (s.setA v).a = v := rfl
@[simp] theorem setA_x (v : Byte) (s : State) : (s.setA v).x = s.x := rfl
@[simp] theorem setA_y (v : Byte) (s : State) : (s.setA v).y = s.y := rfl
@[simp] theorem setA_sp (v : Byte) (s : State) : (s.setA v).sp = s.sp := rfl
@[simp] theorem setA_pc (v : Byte) (s : State) : (s.setA v).pc = s.pc := rfl
@[simp] theorem setA_flagC (v : Byte) (s : State) : (s.setA v).flagC = s.flagC := rfl
@[simp] theorem setA_flagZ (v : Byte) (s : State) : (s.setA v).flagZ = s.flagZ := rfl
@[simp] theorem setA_flagI (v : Byte) (s : State) : (s.setA v).flagI = s.flagI := rfl
@[simp] theorem setA_flagD (v : Byte) (s : State) : (s.setA v).flagD = s.flagD := rfl
@[simp] theorem setA_flagV (v : Byte) (s : State) : (s.setA v).flagV = s.flagV := rfl
@[simp] theorem setA_flagN (v : Byte) (s : State) : (s.setA v).flagN = s.flagN := rfl
@[simp] theorem setA_cyclesRemaining (v : Byte) (s : State) : (s.setA v).cyclesRemaining = s.cyclesRemaining := rfl
@[simp] theorem setA_nmiPending (v : Byte) (s : State) : (s.setA v).nmiPending = s.nmiPending := rfl
@[simp] theorem setA_irqPending (v : Byte) (s : State) : (s.setA v).irqPending = s.irqPending := rfl
@[simp] theorem setA_fault (v : Byte) (s : State) : (s.setA v).fault = s.fault := rfl
@[simp] theorem setA_mem (v : Byte) (s : State) : (s.setA v).mem = s.mem := rfl
@[simp] theorem setA_busMap (v : Byte) (s : State) : (s.setA v).busMap = s.busMap := rfl
@[simp] theorem setA_trace (v : Byte) (s : State) : (s.setA v).trace = s.trace := rfl

/-! ## `setX` -/

@[simp] theorem setX_a (v : Byte) (s : State) : (s.setX v).a = s.a := rfl
@[simp] theorem setX_x (v : Byte) (s : State) : (s.setX v).x = v := rfl
@[simp] theorem setX_y (v : Byte) (s : State) : (s.setX v).y = s.y := rfl
@[simp] theorem setX_sp (v : Byte) (s : State) : (s.setX v).sp = s.sp := rfl
@[simp] theorem setX_pc (v : Byte) (s : State) : (s.setX v).pc = s.pc := rfl
@[simp] theorem setX_flagC (v : Byte) (s : State) : (s.setX v).flagC = s.flagC := rfl
@[simp] theorem setX_flagZ (v : Byte) (s : State) : (s.setX v).flagZ = s.flagZ := rfl
@[simp] theorem setX_flagI (v : Byte) (s : State) : (s.setX v).flagI = s.flagI := rfl
@[simp] theorem setX_flagD (v : Byte) (s : State) : (s.setX v).flagD = s.flagD := rfl
@[simp] theorem setX_flagV (v : Byte) (s : State) : (s.setX v).flagV = s.flagV := rfl
@[simp] theorem setX_flagN (v : Byte) (s : State) : (s.setX v).flagN = s.flagN := rfl
@[simp] theorem setX_cyclesRemaining (v : Byte) (s : State) : (s.setX v).cyclesRemaining = s.cyclesRemaining := rfl
@[simp] theorem setX_nmiPending (v : Byte) (s : State) : (s.setX v).nmiPending = s.nmiPending := rfl
@[simp] theorem setX_irqPending (v : Byte) (s : State) : (s.setX v).irqPending = s.irqPending := rfl
@[simp] theorem setX_fault (v : Byte) (s : State) : (s.setX v).fault = s.fault := rfl
@[simp] theorem setX_mem (v : Byte) (s : State) : (s.setX v).mem = s.mem := rfl
@[simp] theorem setX_busMap (v : Byte) (s : State) : (s.setX v).busMap = s.busMap := rfl
@[simp] theorem setX_trace (v : Byte) (s : State) : (s.setX v).trace = s.trace := rfl

/-! ## `setY` -/

@[simp] theorem setY_a (v : Byte) (s : State) : (s.setY v).a = s.a := rfl
@[simp] theorem setY_x (v : Byte) (s : State) : (s.setY v).x = s.x := rfl
@[simp] theorem setY_y (v : Byte) (s : State) : (s.setY v).y = v := rfl
@[simp] theorem setY_sp (v : Byte) (s : State) : (s.setY v).sp = s.sp := rfl
@[simp] theorem setY_pc (v : Byte) (s : State) : (s.setY v).pc = s.pc := rfl
@[simp] theorem setY_flagC (v : Byte) (s : State) : (s.setY v).flagC = s.flagC := rfl
@[simp] theorem setY_flagZ (v : Byte) (s : State) : (s.setY v).flagZ = s.flagZ := rfl
@[simp] theorem setY_flagI (v : Byte) (s : State) : (s.setY v).flagI = s.flagI := rfl
@[simp] theorem setY_flagD (v : Byte) (s : State) : (s.setY v).flagD = s.flagD := rfl
@[simp] theorem setY_flagV (v : Byte) (s : State) : (s.setY v).flagV = s.flagV := rfl
@[simp] theorem setY_flagN (v : Byte) (s : State) : (s.setY v).flagN = s.flagN := rfl
@[simp] theorem setY_cyclesRemaining (v : Byte) (s : State) : (s.setY v).cyclesRemaining = s.cyclesRemaining := rfl
@[simp] theorem setY_nmiPending (v : Byte) (s : State) : (s.setY v).nmiPending = s.nmiPending := rfl
@[simp] theorem setY_irqPending (v : Byte) (s : State) : (s.setY v).irqPending = s.irqPending := rfl
@[simp] theorem setY_fault (v : Byte) (s : State) : (s.setY v).fault = s.fault := rfl
@[simp] theorem setY_mem (v : Byte) (s : State) : (s.setY v).mem = s.mem := rfl
@[simp] theorem setY_busMap (v : Byte) (s : State) : (s.setY v).busMap = s.busMap := rfl
@[simp] theorem setY_trace (v : Byte) (s : State) : (s.setY v).trace = s.trace := rfl

/-! ## `setSP` -/

@[simp] theorem setSP_a (v : Byte) (s : State) : (s.setSP v).a = s.a := rfl
@[simp] theorem setSP_x (v : Byte) (s : State) : (s.setSP v).x = s.x := rfl
@[simp] theorem setSP_y (v : Byte) (s : State) : (s.setSP v).y = s.y := rfl
@[simp] theorem setSP_sp (v : Byte) (s : State) : (s.setSP v).sp = v := rfl
@[simp] theorem setSP_pc (v : Byte) (s : State) : (s.setSP v).pc = s.pc := rfl
@[simp] theorem setSP_flagC (v : Byte) (s : State) : (s.setSP v).flagC = s.flagC := rfl
@[simp] theorem setSP_flagZ (v : Byte) (s : State) : (s.setSP v).flagZ = s.flagZ := rfl
@[simp] theorem setSP_flagI (v : Byte) (s : State) : (s.setSP v).flagI = s.flagI := rfl
@[simp] theorem setSP_flagD (v : Byte) (s : State) : (s.setSP v).flagD = s.flagD := rfl
@[simp] theorem setSP_flagV (v : Byte) (s : State) : (s.setSP v).flagV = s.flagV := rfl
@[simp] theorem setSP_flagN (v : Byte) (s : State) : (s.setSP v).flagN = s.flagN := rfl
@[simp] theorem setSP_cyclesRemaining (v : Byte) (s : State) : (s.setSP v).cyclesRemaining = s.cyclesRemaining := rfl
@[simp] theorem setSP_nmiPending (v : Byte) (s : State) : (s.setSP v).nmiPending = s.nmiPending := rfl
@[simp] theorem setSP_irqPending (v : Byte) (s : State) : (s.setSP v).irqPending = s.irqPending := rfl
@[simp] theorem setSP_fault (v : Byte) (s : State) : (s.setSP v).fault = s.fault := rfl
@[simp] theorem setSP_mem (v : Byte) (s : State) : (s.setSP v).mem = s.mem := rfl
@[simp] theorem setSP_busMap (v : Byte) (s : State) : (s.setSP v).busMap = s.busMap := rfl
@[simp] theorem setSP_trace (v : Byte) (s : State) : (s.setSP v).trace = s.trace := rfl

/-! ## `setPC` -/

@[simp] theorem setPC_a (v : Word) (s : State) : (s.setPC v).a = s.a := rfl
@[simp] theorem setPC_x (v : Word) (s : State) : (s.setPC v).x = s.x := rfl
@[simp] theorem setPC_y (v : Word) (s : State) : (s.setPC v).y = s.y := rfl
@[simp] theorem setPC_sp (v : Word) (s : State) : (s.setPC v).sp = s.sp := rfl
@[simp] theorem setPC_pc (v : Word) (s : State) : (s.setPC v).pc = v := rfl
@[simp] theorem setPC_flagC (v : Word) (s : State) : (s.setPC v).flagC = s.flagC := rfl
@[simp] theorem setPC_flagZ (v : Word) (s : State) : (s.setPC v).flagZ = s.flagZ := rfl
@[simp] theorem setPC_flagI (v : Word) (s : State) : (s.setPC v).flagI = s.flagI := rfl
@[simp] theorem setPC_flagD (v : Word) (s : State) : (s.setPC v).flagD = s.flagD := rfl
@[simp] theorem setPC_flagV (v : Word) (s : State) : (s.setPC v).flagV = s.flagV := rfl
@[simp] theorem setPC_flagN (v : Word) (s : State) : (s.setPC v).flagN = s.flagN := rfl
@[simp] theorem setPC_cyclesRemaining (v : Word) (s : State) : (s.setPC v).cyclesRemaining = s.cyclesRemaining := rfl
@[simp] theorem setPC_nmiPending (v : Word) (s : State) : (s.setPC v).nmiPending = s.nmiPending := rfl
@[simp] theorem setPC_irqPending (v : Word) (s : State) : (s.setPC v).irqPending = s.irqPending := rfl
@[simp] theorem setPC_fault (v : Word) (s : State) : (s.setPC v).fault = s.fault := rfl
@[simp] theorem setPC_mem (v : Word) (s : State) : (s.setPC v).mem = s.mem := rfl
@[simp] theorem setPC_busMap (v : Word) (s : State) : (s.setPC v).busMap = s.busMap := rfl
@[simp] theorem setPC_trace (v : Word) (s : State) : (s.setPC v).trace = s.trace := rfl

/-! ## `setC` -/

@[simp] theorem setC_a (b : Bool) (s : State) : (s.setC b).a = s.a := rfl
@[simp] theorem setC_x (b : Bool) (s : State) : (s.setC b).x = s.x := rfl
@[simp] theorem setC_y (b : Bool) (s : State) : (s.setC b).y = s.y := rfl
@[simp] theorem setC_sp (b : Bool) (s : State) : (s.setC b).sp = s.sp := rfl
@[simp] theorem setC_pc (b : Bool) (s : State) : (s.setC b).pc = s.pc := rfl
@[simp] theorem setC_flagC (b : Bool) (s : State) : (s.setC b).flagC = b := rfl
@[simp] theorem setC_flagZ (b : Bool) (s : State) : (s.setC b).flagZ = s.flagZ := rfl
@[simp] theorem setC_flagI (b : Bool) (s : State) : (s.setC b).flagI = s.flagI := rfl
@[simp] theorem setC_flagD (b : Bool) (s : State) : (s.setC b).flagD = s.flagD := rfl
@[simp] theorem setC_flagV (b : Bool) (s : State) : (s.setC b).flagV = s.flagV := rfl
@[simp] theorem setC_flagN (b : Bool) (s : State) : (s.setC b).flagN = s.flagN := rfl
@[simp] theorem setC_cyclesRemaining (b : Bool) (s : State) : (s.setC b).cyclesRemaining = s.cyclesRemaining := rfl
@[simp] theorem setC_nmiPending (b : Bool) (s : State) : (s.setC b).nmiPending = s.nmiPending := rfl
@[simp] theorem setC_irqPending (b : Bool) (s : State) : (s.setC b).irqPending = s.irqPending := rfl
@[simp] theorem setC_fault (b : Bool) (s : State) : (s.setC b).fault = s.fault := rfl
@[simp] theorem setC_mem (b : Bool) (s : State) : (s.setC b).mem = s.mem := rfl
@[simp] theorem setC_busMap (b : Bool) (s : State) : (s.setC b).busMap = s.busMap := rfl
@[simp] theorem setC_trace (b : Bool) (s : State) : (s.setC b).trace = s.trace := rfl

/-! ## `setI` -/

@[simp] theorem setI_a (b : Bool) (s : State) : (s.setI b).a = s.a := rfl
@[simp] theorem setI_x (b : Bool) (s : State) : (s.setI b).x = s.x := rfl
@[simp] theorem setI_y (b : Bool) (s : State) : (s.setI b).y = s.y := rfl
@[simp] theorem setI_sp (b : Bool) (s : State) : (s.setI b).sp = s.sp := rfl
@[simp] theorem setI_pc (b : Bool) (s : State) : (s.setI b).pc = s.pc := rfl
@[simp] theorem setI_flagC (b : Bool) (s : State) : (s.setI b).flagC = s.flagC := rfl
@[simp] theorem setI_flagZ (b : Bool) (s : State) : (s.setI b).flagZ = s.flagZ := rfl
@[simp] theorem setI_flagI (b : Bool) (s : State) : (s.setI b).flagI = b := rfl
@[simp] theorem setI_flagD (b : Bool) (s : State) : (s.setI b).flagD = s.flagD := rfl
@[simp] theorem setI_flagV (b : Bool) (s : State) : (s.setI b).flagV = s.flagV := rfl
@[simp] theorem setI_flagN (b : Bool) (s : State) : (s.setI b).flagN = s.flagN := rfl
@[simp] theorem setI_cyclesRemaining (b : Bool) (s : State) : (s.setI b).cyclesRemaining = s.cyclesRemaining := rfl
@[simp] theorem setI_nmiPending (b : Bool) (s : State) : (s.setI b).nmiPending = s.nmiPending := rfl
@[simp] theorem setI_irqPending (b : Bool) (s : State) : (s.setI b).irqPending = s.irqPending := rfl
@[simp] theorem setI_fault (b : Bool) (s : State) : (s.setI b).fault = s.fault := rfl
@[simp] theorem setI_mem (b : Bool) (s : State) : (s.setI b).mem = s.mem := rfl
@[simp] theorem setI_busMap (b : Bool) (s : State) : (s.setI b).busMap = s.busMap := rfl
@[simp] theorem setI_trace (b : Bool) (s : State) : (s.setI b).trace = s.trace := rfl

/-! ## `setD` -/

@[simp] theorem setD_a (b : Bool) (s : State) : (s.setD b).a = s.a := rfl
@[simp] theorem setD_x (b : Bool) (s : State) : (s.setD b).x = s.x := rfl
@[simp] theorem setD_y (b : Bool) (s : State) : (s.setD b).y = s.y := rfl
@[simp] theorem setD_sp (b : Bool) (s : State) : (s.setD b).sp = s.sp := rfl
@[simp] theorem setD_pc (b : Bool) (s : State) : (s.setD b).pc = s.pc := rfl
@[simp] theorem setD_flagC (b : Bool) (s : State) : (s.setD b).flagC = s.flagC := rfl
@[simp] theorem setD_flagZ (b : Bool) (s : State) : (s.setD b).flagZ = s.flagZ := rfl
@[simp] theorem setD_flagI (b : Bool) (s : State) : (s.setD b).flagI = s.flagI := rfl
@[simp] theorem setD_flagD (b : Bool) (s : State) : (s.setD b).flagD = b := rfl
@[simp] theorem setD_flagV (b : Bool) (s : State) : (s.setD b).flagV = s.flagV := rfl
@[simp] theorem setD_flagN (b : Bool) (s : State) : (s.setD b).flagN = s.flagN := rfl
@[simp] theorem setD_cyclesRemaining (b : Bool) (s : State) : (s.setD b).cyclesRemaining = s.cyclesRemaining := rfl
@[simp] theorem setD_nmiPending (b : Bool) (s : State) : (s.setD b).nmiPending = s.nmiPending := rfl
@[simp] theorem setD_irqPending (b : Bool) (s : State) : (s.setD b).irqPending = s.irqPending := rfl
@[simp] theorem setD_fault (b : Bool) (s : State) : (s.setD b).fault = s.fault := rfl
@[simp] theorem setD_mem (b : Bool) (s : State) : (s.setD b).mem = s.mem := rfl
@[simp] theorem setD_busMap (b : Bool) (s : State) : (s.setD b).busMap = s.busMap := rfl
@[simp] theorem setD_trace (b : Bool) (s : State) : (s.setD b).trace = s.trace := rfl

/-! ## `setV` -/

@[simp] theorem setV_a (b : Bool) (s : State) : (s.setV b).a = s.a := rfl
@[simp] theorem setV_x (b : Bool) (s : State) : (s.setV b).x = s.x := rfl
@[simp] theorem setV_y (b : Bool) (s : State) : (s.setV b).y = s.y := rfl
@[simp] theorem setV_sp (b : Bool) (s : State) : (s.setV b).sp = s.sp := rfl
@[simp] theorem setV_pc (b : Bool) (s : State) : (s.setV b).pc = s.pc := rfl
@[simp] theorem setV_flagC (b : Bool) (s : State) : (s.setV b).flagC = s.flagC := rfl
@[simp] theorem setV_flagZ (b : Bool) (s : State) : (s.setV b).flagZ = s.flagZ := rfl
@[simp] theorem setV_flagI (b : Bool) (s : State) : (s.setV b).flagI = s.flagI := rfl
@[simp] theorem setV_flagD (b : Bool) (s : State) : (s.setV b).flagD = s.flagD := rfl
@[simp] theorem setV_flagV (b : Bool) (s : State) : (s.setV b).flagV = b := rfl
@[simp] theorem setV_flagN (b : Bool) (s : State) : (s.setV b).flagN = s.flagN := rfl
@[simp] theorem setV_cyclesRemaining (b : Bool) (s : State) : (s.setV b).cyclesRemaining = s.cyclesRemaining := rfl
@[simp] theorem setV_nmiPending (b : Bool) (s : State) : (s.setV b).nmiPending = s.nmiPending := rfl
@[simp] theorem setV_irqPending (b : Bool) (s : State) : (s.setV b).irqPending = s.irqPending := rfl
@[simp] theorem setV_fault (b : Bool) (s : State) : (s.setV b).fault = s.fault := rfl
@[simp] theorem setV_mem (b : Bool) (s : State) : (s.setV b).mem = s.mem := rfl
@[simp] theorem setV_busMap (b : Bool) (s : State) : (s.setV b).busMap = s.busMap := rfl
@[simp] theorem setV_trace (b : Bool) (s : State) : (s.setV b).trace = s.trace := rfl

/-! ## `setCycles` -/

@[simp] theorem setCycles_a (n : Nat) (s : State) : (s.setCycles n).a = s.a := rfl
@[simp] theorem setCycles_x (n : Nat) (s : State) : (s.setCycles n).x = s.x := rfl
@[simp] theorem setCycles_y (n : Nat) (s : State) : (s.setCycles n).y = s.y := rfl
@[simp] theorem setCycles_sp (n : Nat) (s : State) : (s.setCycles n).sp = s.sp := rfl
@[simp] theorem setCycles_pc (n : Nat) (s : State) : (s.setCycles n).pc = s.pc := rfl
@[simp] theorem setCycles_flagC (n : Nat) (s : State) : (s.setCycles n).flagC = s.flagC := rfl
@[simp] theorem setCycles_flagZ (n : Nat) (s : State) : (s.setCycles n).flagZ = s.flagZ := rfl
@[simp] theorem setCycles_flagI (n : Nat) (s : State) : (s.setCycles n).flagI = s.flagI := rfl
@[simp] theorem setCycles_flagD (n : Nat) (s : State) : (s.setCycles n).flagD = s.flagD := rfl
@[simp] theorem setCycles_flagV (n : Nat) (s : State) : (s.setCycles n).flagV = s.flagV := rfl
@[simp] theorem setCycles_flagN (n : Nat) (s : State) : (s.setCycles n).flagN = s.flagN := rfl
@[simp] theorem setCycles_cyclesRemaining (n : Nat) (s : State) : (s.setCycles n).cyclesRemaining = n := rfl
@[simp] theorem setCycles_nmiPending (n : Nat) (s : State) : (s.setCycles n).nmiPending = s.nmiPending := rfl
@[simp] theorem setCycles_irqPending (n : Nat) (s : State) : (s.setCycles n).irqPending = s.irqPending := rfl
@[simp] theorem setCycles_fault (n : Nat) (s : State) : (s.setCycles n).fault = s.fault := rfl
@[simp] theorem setCycles_mem (n : Nat) (s : State) : (s.setCycles n).mem = s.mem := rfl
@[simp] theorem setCycles_busMap (n : Nat) (s : State) : (s.setCycles n).busMap = s.busMap := rfl
@[simp] theorem setCycles_trace (n : Nat) (s : State) : (s.setCycles n).trace = s.trace := rfl

/-! ## `setZN` -/

@[simp] theorem setZN_a (v : Byte) (s : State) : (s.setZN v).a = s.a := rfl
@[simp] theorem setZN_x (v : Byte) (s : State) : (s.setZN v).x = s.x := rfl
@[simp] theorem setZN_y (v : Byte) (s : State) : (s.setZN v).y = s.y := rfl
@[simp] theorem setZN_sp (v : Byte) (s : State) : (s.setZN v).sp = s.sp := rfl
@[simp] theorem setZN_pc (v : Byte) (s : State) : (s.setZN v).pc = s.pc := rfl
@[simp] theorem setZN_flagC (v : Byte) (s : State) : (s.setZN v).flagC = s.flagC := rfl
@[simp] theorem setZN_flagZ (v : Byte) (s : State) : (s.setZN v).flagZ = (v == 0) := rfl
@[simp] theorem setZN_flagI (v : Byte) (s : State) : (s.setZN v).flagI = s.flagI := rfl
@[simp] theorem setZN_flagD (v : Byte) (s : State) : (s.setZN v).flagD = s.flagD := rfl
@[simp] theorem setZN_flagV (v : Byte) (s : State) : (s.setZN v).flagV = s.flagV := rfl
@[simp] theorem setZN_flagN (v : Byte) (s : State) : (s.setZN v).flagN = v.getLsbD 7 := rfl
@[simp] theorem setZN_cyclesRemaining (v : Byte) (s : State) : (s.setZN v).cyclesRemaining = s.cyclesRemaining := rfl
@[simp] theorem setZN_nmiPending (v : Byte) (s : State) : (s.setZN v).nmiPending = s.nmiPending := rfl
@[simp] theorem setZN_irqPending (v : Byte) (s : State) : (s.setZN v).irqPending = s.irqPending := rfl
@[simp] theorem setZN_fault (v : Byte) (s : State) : (s.setZN v).fault = s.fault := rfl
@[simp] theorem setZN_mem (v : Byte) (s : State) : (s.setZN v).mem = s.mem := rfl
@[simp] theorem setZN_busMap (v : Byte) (s : State) : (s.setZN v).busMap = s.busMap := rfl
@[simp] theorem setZN_trace (v : Byte) (s : State) : (s.setZN v).trace = s.trace := rfl

/-! ## `setP` -/

@[simp] theorem setP_a (v : Byte) (s : State) : (s.setP v).a = s.a := rfl
@[simp] theorem setP_x (v : Byte) (s : State) : (s.setP v).x = s.x := rfl
@[simp] theorem setP_y (v : Byte) (s : State) : (s.setP v).y = s.y := rfl
@[simp] theorem setP_sp (v : Byte) (s : State) : (s.setP v).sp = s.sp := rfl
@[simp] theorem setP_pc (v : Byte) (s : State) : (s.setP v).pc = s.pc := rfl
@[simp] theorem setP_flagC (v : Byte) (s : State) : (s.setP v).flagC = v.getLsbD 0 := rfl
@[simp] theorem setP_flagZ (v : Byte) (s : State) : (s.setP v).flagZ = v.getLsbD 1 := rfl
@[simp] theorem setP_flagI (v : Byte) (s : State) : (s.setP v).flagI = v.getLsbD 2 := rfl
@[simp] theorem setP_flagD (v : Byte) (s : State) : (s.setP v).flagD = v.getLsbD 3 := rfl
@[simp] theorem setP_flagV (v : Byte) (s : State) : (s.setP v).flagV = v.getLsbD 6 := rfl
@[simp] theorem setP_flagN (v : Byte) (s : State) : (s.setP v).flagN = v.getLsbD 7 := rfl
@[simp] theorem setP_cyclesRemaining (v : Byte) (s : State) : (s.setP v).cyclesRemaining = s.cyclesRemaining := rfl
@[simp] theorem setP_nmiPending (v : Byte) (s : State) : (s.setP v).nmiPending = s.nmiPending := rfl
@[simp] theorem setP_irqPending (v : Byte) (s : State) : (s.setP v).irqPending = s.irqPending := rfl
@[simp] theorem setP_fault (v : Byte) (s : State) : (s.setP v).fault = s.fault := rfl
@[simp] theorem setP_mem (v : Byte) (s : State) : (s.setP v).mem = s.mem := rfl
@[simp] theorem setP_busMap (v : Byte) (s : State) : (s.setP v).busMap = s.busMap := rfl
@[simp] theorem setP_trace (v : Byte) (s : State) : (s.setP v).trace = s.trace := rfl

/-! ## `triggerNmi` -/

@[simp] theorem triggerNmi_a (s : State) : (s.triggerNmi).a = s.a := rfl
@[simp] theorem triggerNmi_x (s : State) : (s.triggerNmi).x = s.x := rfl
@[simp] theorem triggerNmi_y (s : State) : (s.triggerNmi).y = s.y := rfl
@[simp] theorem triggerNmi_sp (s : State) : (s.triggerNmi).sp = s.sp := rfl
@[simp] theorem triggerNmi_pc (s : State) : (s.triggerNmi).pc = s.pc := rfl
@[simp] theorem triggerNmi_flagC (s : State) : (s.triggerNmi).flagC = s.flagC := rfl
@[simp] theorem triggerNmi_flagZ (s : State) : (s.triggerNmi).flagZ = s.flagZ := rfl
@[simp] theorem triggerNmi_flagI (s : State) : (s.triggerNmi).flagI = s.flagI := rfl
@[simp] theorem triggerNmi_flagD (s : State) : (s.triggerNmi).flagD = s.flagD := rfl
@[simp] theorem triggerNmi_flagV (s : State) : (s.triggerNmi).flagV = s.flagV := rfl
@[simp] theorem triggerNmi_flagN (s : State) : (s.triggerNmi).flagN = s.flagN := rfl
@[simp] theorem triggerNmi_cyclesRemaining (s : State) : (s.triggerNmi).cyclesRemaining = s.cyclesRemaining := rfl
@[simp] theorem triggerNmi_nmiPending (s : State) : (s.triggerNmi).nmiPending = true := rfl
@[simp] theorem triggerNmi_irqPending (s : State) : (s.triggerNmi).irqPending = s.irqPending := rfl
@[simp] theorem triggerNmi_fault (s : State) : (s.triggerNmi).fault = s.fault := rfl
@[simp] theorem triggerNmi_mem (s : State) : (s.triggerNmi).mem = s.mem := rfl
@[simp] theorem triggerNmi_busMap (s : State) : (s.triggerNmi).busMap = s.busMap := rfl
@[simp] theorem triggerNmi_trace (s : State) : (s.triggerNmi).trace = s.trace := rfl

/-! ## `triggerIrq` -/

@[simp] theorem triggerIrq_a (s : State) : (s.triggerIrq).a = s.a := rfl
@[simp] theorem triggerIrq_x (s : State) : (s.triggerIrq).x = s.x := rfl
@[simp] theorem triggerIrq_y (s : State) : (s.triggerIrq).y = s.y := rfl
@[simp] theorem triggerIrq_sp (s : State) : (s.triggerIrq).sp = s.sp := rfl
@[simp] theorem triggerIrq_pc (s : State) : (s.triggerIrq).pc = s.pc := rfl
@[simp] theorem triggerIrq_flagC (s : State) : (s.triggerIrq).flagC = s.flagC := rfl
@[simp] theorem triggerIrq_flagZ (s : State) : (s.triggerIrq).flagZ = s.flagZ := rfl
@[simp] theorem triggerIrq_flagI (s : State) : (s.triggerIrq).flagI = s.flagI := rfl
@[simp] theorem triggerIrq_flagD (s : State) : (s.triggerIrq).flagD = s.flagD := rfl
@[simp] theorem triggerIrq_flagV (s : State) : (s.triggerIrq).flagV = s.flagV := rfl
@[simp] theorem triggerIrq_flagN (s : State) : (s.triggerIrq).flagN = s.flagN := rfl
@[simp] theorem triggerIrq_cyclesRemaining (s : State) : (s.triggerIrq).cyclesRemaining = s.cyclesRemaining := rfl
@[simp] theorem triggerIrq_nmiPending (s : State) : (s.triggerIrq).nmiPending = s.nmiPending := rfl
@[simp] theorem triggerIrq_irqPending (s : State) : (s.triggerIrq).irqPending = true := rfl
@[simp] theorem triggerIrq_fault (s : State) : (s.triggerIrq).fault = s.fault := rfl
@[simp] theorem triggerIrq_mem (s : State) : (s.triggerIrq).mem = s.mem := rfl
@[simp] theorem triggerIrq_busMap (s : State) : (s.triggerIrq).busMap = s.busMap := rfl
@[simp] theorem triggerIrq_trace (s : State) : (s.triggerIrq).trace = s.trace := rfl

/-! ## `idleTick` -/

@[simp] theorem idleTick_a (s : State) : (s.idleTick).a = s.a := rfl
@[simp] theorem idleTick_x (s : State) : (s.idleTick).x = s.x := rfl
@[simp] theorem idleTick_y (s : State) : (s.idleTick).y = s.y := rfl
@[simp] theorem idleTick_sp (s : State) : (s.idleTick).sp = s.sp := rfl
@[simp] theorem idleTick_pc (s : State) : (s.idleTick).pc = s.pc := rfl
@[simp] theorem idleTick_flagC (s : State) : (s.idleTick).flagC = s.flagC := rfl
@[simp] theorem idleTick_flagZ (s : State) : (s.idleTick).flagZ = s.flagZ := rfl
@[simp] theorem idleTick_flagI (s : State) : (s.idleTick).flagI = s.flagI := rfl
@[simp] theorem idleTick_flagD (s : State) : (s.idleTick).flagD = s.flagD := rfl
@[simp] theorem idleTick_flagV (s : State) : (s.idleTick).flagV = s.flagV := rfl
@[simp] theorem idleTick_flagN (s : State) : (s.idleTick).flagN = s.flagN := rfl
@[simp] theorem idleTick_cyclesRemaining (s : State) : (s.idleTick).cyclesRemaining = s.cyclesRemaining - 1 := rfl
@[simp] theorem idleTick_nmiPending (s : State) : (s.idleTick).nmiPending = s.nmiPending := rfl
@[simp] theorem idleTick_irqPending (s : State) : (s.idleTick).irqPending = s.irqPending := rfl
@[simp] theorem idleTick_fault (s : State) : (s.idleTick).fault = s.fault := rfl
@[simp] theorem idleTick_mem (s : State) : (s.idleTick).mem = s.mem := rfl
@[simp] theorem idleTick_busMap (s : State) : (s.idleTick).busMap = s.busMap := rfl
@[simp] theorem idleTick_trace (s : State) : (s.idleTick).trace = s.trace := rfl

/-! ## `raiseUnimplemented` -/

@[simp] theorem raiseUnimplemented_a (op : Byte) (s : State) : (s.raiseUnimplemented op).a = s.a := rfl
@[simp] theorem raiseUnimplemented_x (op : Byte) (s : State) : (s.raiseUnimplemented op).x = s.x := rfl
@[simp] theorem raiseUnimplemented_y (op : Byte) (s : State) : (s.raiseUnimplemented op).y = s.y := rfl
@[simp] theorem raiseUnimplemented_sp (op : Byte) (s : State) : (s.raiseUnimplemented op).sp = s.sp := rfl
@[simp] theorem raiseUnimplemented_pc (op : Byte) (s : State) : (s.raiseUnimplemented op).pc = s.pc := rfl
@[simp] theorem raiseUnimplemented_flagC (op : Byte) (s : State) : (s.raiseUnimplemented op).flagC = s.flagC := rfl
@[simp] theorem raiseUnimplemented_flagZ (op : Byte) (s : State) : (s.raiseUnimplemented op).flagZ = s.flagZ := rfl
@[simp] theorem raiseUnimplemented_flagI (op : Byte) (s : State) : (s.raiseUnimplemented op).flagI = s.flagI := rfl
@[simp] theorem raiseUnimplemented_flagD (op : Byte) (s : State) : (s.raiseUnimplemented op).flagD = s.flagD := rfl
@[simp] theorem raiseUnimplemented_flagV (op : Byte) (s : State) : (s.raiseUnimplemented op).flagV = s.flagV := rfl
@[simp] theorem raiseUnimplemented_flagN (op : Byte) (s : State) : (s.raiseUnimplemented op).flagN = s.flagN := rfl
@[simp] theorem raiseUnimplemented_cyclesRemaining (op : Byte) (s : State) :
    (s.raiseUnimplemented op).cyclesRemaining = s.cyclesRemaining := rfl
@[simp] theorem raiseUnimplemented_nmiPending (op : Byte) (s : State) :
    (s.raiseUnimplemented op).nmiPending = s.nmiPending := rfl
@[simp] theorem raiseUnimplemented_irqPending (op : Byte) (s : State) :
    (s.raiseUnimplemented op).irqPending = s.irqPending := rfl
@[simp] theorem raiseUnimplemented_fault (op : Byte) (s : State) :
    (s.raiseUnimplemented op).fault = some ⟨.unimplementedOpcode, op, s.pc⟩ := rfl
@[simp] theorem raiseUnimplemented_mem (op : Byte) (s : State) : (s.raiseUnimplemented op).mem = s.mem := rfl
@[simp] theorem raiseUnimplemented_busMap (op : Byte) (s : State) : (s.raiseUnimplemented op).busMap = s.busMap := rfl
@[simp] theorem raiseUnimplemented_trace (op : Byte) (s : State) : (s.raiseUnimplemented op).trace = s.trace := rfl

/-! ## `addWithCarry` -/

@[simp] theorem addWithCarry_a (m : Byte) (s : State) : (s.addWithCarry m).a = adderResult s.a m s.flagC := rfl
@[simp] theorem addWithCarry_x (m : Byte) (s : State) : (s.addWithCarry m).x = s.x := rfl
@[simp] theorem addWithCarry_y (m : Byte) (s : State) : (s.addWithCarry m).y = s.y := rfl
@[simp] theorem addWithCarry_sp (m : Byte) (s : State) : (s.addWithCarry m).sp = s.sp := rfl
@[simp] theorem addWithCarry_pc (m : Byte) (s : State) : (s.addWithCarry m).pc = s.pc := rfl
@[simp] theorem addWithCarry_flagC (m : Byte) (s : State) : (s.addWithCarry m).flagC = adderCarry s.a m s.flagC := rfl
@[simp] theorem addWithCarry_flagZ (m : Byte) (s : State) :
    (s.addWithCarry m).flagZ = (adderResult s.a m s.flagC == 0) := rfl
@[simp] theorem addWithCarry_flagI (m : Byte) (s : State) : (s.addWithCarry m).flagI = s.flagI := rfl
@[simp] theorem addWithCarry_flagD (m : Byte) (s : State) : (s.addWithCarry m).flagD = s.flagD := rfl
@[simp] theorem addWithCarry_flagV (m : Byte) (s : State) :
    (s.addWithCarry m).flagV = adderOverflow s.a m s.flagC := rfl
@[simp] theorem addWithCarry_flagN (m : Byte) (s : State) :
    (s.addWithCarry m).flagN = (adderResult s.a m s.flagC).getLsbD 7 := rfl
@[simp] theorem addWithCarry_cyclesRemaining (m : Byte) (s : State) :
    (s.addWithCarry m).cyclesRemaining = s.cyclesRemaining := rfl
@[simp] theorem addWithCarry_nmiPending (m : Byte) (s : State) : (s.addWithCarry m).nmiPending = s.nmiPending := rfl
@[simp] theorem addWithCarry_irqPending (m : Byte) (s : State) : (s.addWithCarry m).irqPending = s.irqPending := rfl
@[simp] theorem addWithCarry_fault (m : Byte) (s : State) : (s.addWithCarry m).fault = s.fault := rfl
@[simp] theorem addWithCarry_mem (m : Byte) (s : State) : (s.addWithCarry m).mem = s.mem := rfl
@[simp] theorem addWithCarry_busMap (m : Byte) (s : State) : (s.addWithCarry m).busMap = s.busMap := rfl
@[simp] theorem addWithCarry_trace (m : Byte) (s : State) : (s.addWithCarry m).trace = s.trace := rfl

/-! ## `compare` -/

@[simp] theorem compare_a (r m : Byte) (s : State) : (s.compare r m).a = s.a := rfl
@[simp] theorem compare_x (r m : Byte) (s : State) : (s.compare r m).x = s.x := rfl
@[simp] theorem compare_y (r m : Byte) (s : State) : (s.compare r m).y = s.y := rfl
@[simp] theorem compare_sp (r m : Byte) (s : State) : (s.compare r m).sp = s.sp := rfl
@[simp] theorem compare_pc (r m : Byte) (s : State) : (s.compare r m).pc = s.pc := rfl
@[simp] theorem compare_flagC (r m : Byte) (s : State) : (s.compare r m).flagC = decide (m.toNat ≤ r.toNat) := rfl
@[simp] theorem compare_flagZ (r m : Byte) (s : State) : (s.compare r m).flagZ = (r - m == 0) := rfl
@[simp] theorem compare_flagI (r m : Byte) (s : State) : (s.compare r m).flagI = s.flagI := rfl
@[simp] theorem compare_flagD (r m : Byte) (s : State) : (s.compare r m).flagD = s.flagD := rfl
@[simp] theorem compare_flagV (r m : Byte) (s : State) : (s.compare r m).flagV = s.flagV := rfl
@[simp] theorem compare_flagN (r m : Byte) (s : State) : (s.compare r m).flagN = (r - m).getLsbD 7 := rfl
@[simp] theorem compare_cyclesRemaining (r m : Byte) (s : State) :
    (s.compare r m).cyclesRemaining = s.cyclesRemaining := rfl
@[simp] theorem compare_nmiPending (r m : Byte) (s : State) : (s.compare r m).nmiPending = s.nmiPending := rfl
@[simp] theorem compare_irqPending (r m : Byte) (s : State) : (s.compare r m).irqPending = s.irqPending := rfl
@[simp] theorem compare_fault (r m : Byte) (s : State) : (s.compare r m).fault = s.fault := rfl
@[simp] theorem compare_mem (r m : Byte) (s : State) : (s.compare r m).mem = s.mem := rfl
@[simp] theorem compare_busMap (r m : Byte) (s : State) : (s.compare r m).busMap = s.busMap := rfl
@[simp] theorem compare_trace (r m : Byte) (s : State) : (s.compare r m).trace = s.trace := rfl

/-! ## `bitTest` -/

@[simp] theorem bitTest_a (m : Byte) (s : State) : (s.bitTest m).a = s.a := rfl
@[simp] theorem bitTest_x (m : Byte) (s : State) : (s.bitTest m).x = s.x := rfl
@[simp] theorem bitTest_y (m : Byte) (s : State) : (s.bitTest m).y = s.y := rfl
@[simp] theorem bitTest_sp (m : Byte) (s : State) : (s.bitTest m).sp = s.sp := rfl
@[simp] theorem bitTest_pc (m : Byte) (s : State) : (s.bitTest m).pc = s.pc := rfl
@[simp] theorem bitTest_flagC (m : Byte) (s : State) : (s.bitTest m).flagC = s.flagC := rfl
@[simp] theorem bitTest_flagZ (m : Byte) (s : State) : (s.bitTest m).flagZ = (s.a &&& m == 0) := rfl
@[simp] theorem bitTest_flagI (m : Byte) (s : State) : (s.bitTest m).flagI = s.flagI := rfl
@[simp] theorem bitTest_flagD (m : Byte) (s : State) : (s.bitTest m).flagD = s.flagD := rfl
@[simp] theorem bitTest_flagV (m : Byte) (s : State) : (s.bitTest m).flagV = m.getLsbD 6 := rfl
@[simp] theorem bitTest_flagN (m : Byte) (s : State) : (s.bitTest m).flagN = m.getLsbD 7 := rfl
@[simp] theorem bitTest_cyclesRemaining (m : Byte) (s : State) :
    (s.bitTest m).cyclesRemaining = s.cyclesRemaining := rfl
@[simp] theorem bitTest_nmiPending (m : Byte) (s : State) : (s.bitTest m).nmiPending = s.nmiPending := rfl
@[simp] theorem bitTest_irqPending (m : Byte) (s : State) : (s.bitTest m).irqPending = s.irqPending := rfl
@[simp] theorem bitTest_fault (m : Byte) (s : State) : (s.bitTest m).fault = s.fault := rfl
@[simp] theorem bitTest_mem (m : Byte) (s : State) : (s.bitTest m).mem = s.mem := rfl
@[simp] theorem bitTest_busMap (m : Byte) (s : State) : (s.bitTest m).busMap = s.busMap := rfl
@[simp] theorem bitTest_trace (m : Byte) (s : State) : (s.bitTest m).trace = s.trace := rfl

/-! ## `busWrite` -/

@[simp] theorem busWrite_a (a : Word) (v : Byte) (s : State) : (s.busWrite a v).a = s.a := rfl
@[simp] theorem busWrite_x (a : Word) (v : Byte) (s : State) : (s.busWrite a v).x = s.x := rfl
@[simp] theorem busWrite_y (a : Word) (v : Byte) (s : State) : (s.busWrite a v).y = s.y := rfl
@[simp] theorem busWrite_sp (a : Word) (v : Byte) (s : State) : (s.busWrite a v).sp = s.sp := rfl
@[simp] theorem busWrite_pc (a : Word) (v : Byte) (s : State) : (s.busWrite a v).pc = s.pc := rfl
@[simp] theorem busWrite_flagC (a : Word) (v : Byte) (s : State) : (s.busWrite a v).flagC = s.flagC := rfl
@[simp] theorem busWrite_flagZ (a : Word) (v : Byte) (s : State) : (s.busWrite a v).flagZ = s.flagZ := rfl
@[simp] theorem busWrite_flagI (a : Word) (v : Byte) (s : State) : (s.busWrite a v).flagI = s.flagI := rfl
@[simp] theorem busWrite_flagD (a : Word) (v : Byte) (s : State) : (s.busWrite a v).flagD = s.flagD := rfl
@[simp] theorem busWrite_flagV (a : Word) (v : Byte) (s : State) : (s.busWrite a v).flagV = s.flagV := rfl
@[simp] theorem busWrite_flagN (a : Word) (v : Byte) (s : State) : (s.busWrite a v).flagN = s.flagN := rfl
@[simp] theorem busWrite_cyclesRemaining (a : Word) (v : Byte) (s : State) :
    (s.busWrite a v).cyclesRemaining = s.cyclesRemaining := rfl
@[simp] theorem busWrite_nmiPending (a : Word) (v : Byte) (s : State) :
    (s.busWrite a v).nmiPending = s.nmiPending := rfl
@[simp] theorem busWrite_irqPending (a : Word) (v : Byte) (s : State) :
    (s.busWrite a v).irqPending = s.irqPending := rfl
@[simp] theorem busWrite_fault (a : Word) (v : Byte) (s : State) : (s.busWrite a v).fault = s.fault := rfl
@[simp] theorem busWrite_mem (a : Word) (v : Byte) (s : State) : (s.busWrite a v).mem = s.stored a v := by
  simp only [busWrite, stored]; split <;> simp_all
@[simp] theorem busWrite_busMap (a : Word) (v : Byte) (s : State) : (s.busWrite a v).busMap = s.busMap := rfl
@[simp] theorem busWrite_trace (a : Word) (v : Byte) (s : State) :
    (s.busWrite a v).trace = .write a v :: s.trace := rfl

/-! ## `busRead` -/

@[simp] theorem busRead_value (a : Word) (s : State) : (s.busRead a).1 = s.peek a := rfl
@[simp] theorem busRead_a (a : Word) (s : State) : (s.busRead a).2.a = s.a := rfl
@[simp] theorem busRead_x (a : Word) (s : State) : (s.busRead a).2.x = s.x := rfl
@[simp] theorem busRead_y (a : Word) (s : State) : (s.busRead a).2.y = s.y := rfl
@[simp] theorem busRead_sp (a : Word) (s : State) : (s.busRead a).2.sp = s.sp := rfl
@[simp] theorem busRead_pc (a : Word) (s : State) : (s.busRead a).2.pc = s.pc := rfl
@[simp] theorem busRead_flagC (a : Word) (s : State) : (s.busRead a).2.flagC = s.flagC := rfl
@[simp] theorem busRead_flagZ (a : Word) (s : State) : (s.busRead a).2.flagZ = s.flagZ := rfl
@[simp] theorem busRead_flagI (a : Word) (s : State) : (s.busRead a).2.flagI = s.flagI := rfl
@[simp] theorem busRead_flagD (a : Word) (s : State) : (s.busRead a).2.flagD = s.flagD := rfl
@[simp] theorem busRead_flagV (a : Word) (s : State) : (s.busRead a).2.flagV = s.flagV := rfl
@[simp] theorem busRead_flagN (a : Word) (s : State) : (s.busRead a).2.flagN = s.flagN := rfl
@[simp] theorem busRead_cyclesRemaining (a : Word) (s : State) :
    (s.busRead a).2.cyclesRemaining = s.cyclesRemaining := rfl
@[simp] theorem busRead_nmiPending (a : Word) (s : State) : (s.busRead a).2.nmiPending = s.nmiPending := rfl
@[simp] theorem busRead_irqPending (a : Word) (s : State) : (s.busRead a).2.irqPending = s.irqPending := rfl
@[simp] theorem busRead_fault (a : Word) (s : State) : (s.busRead a).2.fault = s.fault := rfl
@[simp] theorem busRead_mem (a : Word) (s : State) : (s.busRead a).2.mem = s.mem := rfl
@[simp] theorem busRead_busMap (a : Word) (s : State) : (s.busRead a).2.busMap = s.busMap := rfl
@[simp] theorem busRead_trace (a : Word) (s : State) : (s.busRead a).2.trace = .read a (s.peek a) :: s.trace := rfl

/-! ## The stack and the 16-bit reads -/

theorem push_def (v : Byte) (s : State) : s.push v = (s.busWrite (stackAddr s.sp) v).setSP (s.sp - 1) := rfl

@[simp] theorem push_a (v : Byte) (s : State) : (s.push v).a = s.a := rfl
@[simp] theorem push_x (v : Byte) (s : State) : (s.push v).x = s.x := rfl
@[simp] theorem push_y (v : Byte) (s : State) : (s.push v).y = s.y := rfl
@[simp] theorem push_sp (v : Byte) (s : State) : (s.push v).sp = s.sp - 1 := rfl
@[simp] theorem push_pc (v : Byte) (s : State) : (s.push v).pc = s.pc := rfl
@[simp] theorem push_flagC (v : Byte) (s : State) : (s.push v).flagC = s.flagC := rfl
@[simp] theorem push_flagZ (v : Byte) (s : State) : (s.push v).flagZ = s.flagZ := rfl
@[simp] theorem push_flagI (v : Byte) (s : State) : (s.push v).flagI = s.flagI := rfl
@[simp] theorem push_flagD (v : Byte) (s : State) : (s.push v).flagD = s.flagD := rfl
@[simp] theorem push_flagV (v : Byte) (s : State) : (s.push v).flagV = s.flagV := rfl
@[simp] theorem push_flagN (v : Byte) (s : State) : (s.push v).flagN = s.flagN := rfl
@[simp] theorem push_cyclesRemaining (v : Byte) (s : State) : (s.push v).cyclesRemaining = s.cyclesRemaining := rfl
@[simp] theorem push_nmiPending (v : Byte) (s : State) : (s.push v).nmiPending = s.nmiPending := rfl
@[simp] theorem push_irqPending (v : Byte) (s : State) : (s.push v).irqPending = s.irqPending := rfl
@[simp] theorem push_fault (v : Byte) (s : State) : (s.push v).fault = s.fault := rfl
@[simp] theorem push_mem (v : Byte) (s : State) : (s.push v).mem = s.stored (stackAddr s.sp) v := by
  simp only [push_def, busWrite_mem, setSP_mem]
@[simp] theorem push_busMap (v : Byte) (s : State) : (s.push v).busMap = s.busMap := rfl
@[simp] theorem push_trace (v : Byte) (s : State) : (s.push v).trace = .write (stackAddr s.sp) v :: s.trace := rfl

@[simp] theorem pull_value (s : State) : (s.pull).1 = s.peek (stackAddr (s.sp + 1)) := rfl
@[simp] theorem pull_a (s : State) : (s.pull).2.a = s.a := rfl
@[simp] theorem pull_x (s : State) : (s.pull).2.x = s.x := rfl
@[simp] theorem pull_y (s : State) : (s.pull).2.y = s.y := rfl
@[simp] theorem pull_sp (s : State) : (s.pull).2.sp = s.sp + 1 := rfl
@[simp] theorem pull_pc (s : State) : (s.pull).2.pc = s.pc := rfl
@[simp] theorem pull_flagC (s : State) : (s.pull).2.flagC = s.flagC := rfl
@[simp] theorem pull_flagZ (s : State) : (s.pull).2.flagZ = s.flagZ := rfl
@[simp] theorem pull_flagI (s : State) : (s.pull).2.flagI = s.flagI := rfl
@[simp] theorem pull_flagD (s : State) : (s.pull).2.flagD = s.flagD := rfl
@[simp] theorem pull_flagV (s : State) : (s.pull).2.flagV = s.flagV := rfl
@[simp] theorem pull_flagN (s : State) : (s.pull).2.flagN = s.flagN := rfl
@[simp] theorem pull_cyclesRemaining (s : State) : (s.pull).2.cyclesRemaining = s.cyclesRemaining := rfl
@[simp] theorem pull_nmiPending (s : State) : (s.pull).2.nmiPending = s.nmiPending := rfl
@[simp] theorem pull_irqPending (s : State) : (s.pull).2.irqPending = s.irqPending := rfl
@[simp] theorem pull_fault (s : State) : (s.pull).2.fault = s.fault := rfl
@[simp] theorem pull_mem (s : State) : (s.pull).2.mem = s.mem := rfl
@[simp] theorem pull_busMap (s : State) : (s.pull).2.busMap = s.busMap := rfl
@[simp] theorem pull_trace (s : State) :
    (s.pull).2.trace = .read (stackAddr (s.sp + 1)) (s.peek (stackAddr (s.sp + 1))) :: s.trace := rfl

@[simp] theorem readPair_a (a b : Word) (s : State) : (s.readPair a b).2.a = s.a := rfl
@[simp] theorem readPair_x (a b : Word) (s : State) : (s.readPair a b).2.x = s.x := rfl
@[simp] theorem readPair_y (a b : Word) (s : State) : (s.readPair a b).2.y = s.y := rfl
@[simp] theorem readPair_sp (a b : Word) (s : State) : (s.readPair a b).2.sp = s.sp := rfl
@[simp] theorem readPair_pc (a b : Word) (s : State) : (s.readPair a b).2.pc = s.pc := rfl
@[simp] theorem readPair_flagC (a b : Word) (s : State) : (s.readPair a b).2.flagC = s.flagC := rfl
@[simp] theorem readPair_flagZ (a b : Word) (s : State) : (s.readPair a b).2.flagZ = s.flagZ := rfl
@[simp] theorem readPair_flagI (a b : Word) (s : State) : (s.readPair a b).2.flagI = s.flagI := rfl
@[simp] theorem readPair_flagD (a b : Word) (s : State) : (s.readPair a b).2.flagD = s.flagD := rfl
@[simp] theorem readPair_flagV (a b : Word) (s : State) : (s.readPair a b).2.flagV = s.flagV := rfl
@[simp] theorem readPair_flagN (a b : Word) (s : State) : (s.readPair a b).2.flagN = s.flagN := rfl
@[simp] theorem readPair_cyclesRemaining (a b : Word) (s : State) :
    (s.readPair a b).2.cyclesRemaining = s.cyclesRemaining := rfl
@[simp] theorem readPair_nmiPending (a b : Word) (s : State) : (s.readPair a b).2.nmiPending = s.nmiPending := rfl
@[simp] theorem readPair_irqPending (a b : Word) (s : State) : (s.readPair a b).2.irqPending = s.irqPending := rfl
@[simp] theorem readPair_fault (a b : Word) (s : State) : (s.readPair a b).2.fault = s.fault := rfl
@[simp] theorem readPair_mem (a b : Word) (s : State) : (s.readPair a b).2.mem = s.mem := rfl
@[simp] theorem readPair_busMap (a b : Word) (s : State) : (s.readPair a b).2.busMap = s.busMap := rfl

/-! ## Entry and return: what they leave alone -/

@[simp] theorem interruptEntry_a (v : Word) (b : Bool) (s : State) : (s.interruptEntry v b).a = s.a := by
  simp [interruptEntry, read16]
@[simp] theorem interruptEntry_x (v : Word) (b : Bool) (s : State) : (s.interruptEntry v b).x = s.x := by
  simp [interruptEntry, read16]
@[simp] theorem interruptEntry_y (v : Word) (b : Bool) (s : State) : (s.interruptEntry v b).y = s.y := by
  simp [interruptEntry, read16]
@[simp] theorem interruptEntry_sp (v : Word) (b : Bool) (s : State) :
    (s.interruptEntry v b).sp = s.sp - 1 - 1 - 1 := by
  simp [interruptEntry, read16]
@[simp] theorem interruptEntry_flagC (v : Word) (b : Bool) (s : State) : (s.interruptEntry v b).flagC = s.flagC := by
  simp [interruptEntry, read16]
@[simp] theorem interruptEntry_flagZ (v : Word) (b : Bool) (s : State) : (s.interruptEntry v b).flagZ = s.flagZ := by
  simp [interruptEntry, read16]
@[simp] theorem interruptEntry_flagI (v : Word) (b : Bool) (s : State) : (s.interruptEntry v b).flagI = true := by
  simp [interruptEntry, read16]
@[simp] theorem interruptEntry_flagD (v : Word) (b : Bool) (s : State) : (s.interruptEntry v b).flagD = s.flagD := by
  simp [interruptEntry, read16]
@[simp] theorem interruptEntry_flagV (v : Word) (b : Bool) (s : State) : (s.interruptEntry v b).flagV = s.flagV := by
  simp [interruptEntry, read16]
@[simp] theorem interruptEntry_flagN (v : Word) (b : Bool) (s : State) : (s.interruptEntry v b).flagN = s.flagN := by
  simp [interruptEntry, read16]
@[simp] theorem interruptEntry_cyclesRemaining (v : Word) (b : Bool) (s : State) :
    (s.interruptEntry v b).cyclesRemaining = s.cyclesRemaining := by
  simp [interruptEntry, read16]
@[simp] theorem interruptEntry_nmiPending (v : Word) (b : Bool) (s : State) :
    (s.interruptEntry v b).nmiPending = s.nmiPending := by
  simp [interruptEntry, read16]
@[simp] theorem interruptEntry_irqPending (v : Word) (b : Bool) (s : State) :
    (s.interruptEntry v b).irqPending = s.irqPending := by
  simp [interruptEntry, read16]
@[simp] theorem interruptEntry_fault (v : Word) (b : Bool) (s : State) : (s.interruptEntry v b).fault = s.fault := by
  simp [interruptEntry, read16]
@[simp] theorem interruptEntry_busMap (v : Word) (b : Bool) (s : State) :
    (s.interruptEntry v b).busMap = s.busMap := by
  simp [interruptEntry, read16]

@[simp] theorem interruptReturn_a (s : State) : s.interruptReturn.a = s.a := by
  simp [interruptReturn]
@[simp] theorem interruptReturn_x (s : State) : s.interruptReturn.x = s.x := by
  simp [interruptReturn]
@[simp] theorem interruptReturn_y (s : State) : s.interruptReturn.y = s.y := by
  simp [interruptReturn]
@[simp] theorem interruptReturn_sp (s : State) : s.interruptReturn.sp = s.sp + 1 + 1 + 1 := by
  simp [interruptReturn]
@[simp] theorem interruptReturn_cyclesRemaining (s : State) :
    s.interruptReturn.cyclesRemaining = s.cyclesRemaining := by
  simp [interruptReturn]
@[simp] theorem interruptReturn_nmiPending (s : State) : s.interruptReturn.nmiPending = s.nmiPending := by
  simp [interruptReturn]
@[simp] theorem interruptReturn_irqPending (s : State) : s.interruptReturn.irqPending = s.irqPending := by
  simp [interruptReturn]
@[simp] theorem interruptReturn_fault (s : State) : s.interruptReturn.fault = s.fault := by
  simp [interruptReturn]
@[simp] theorem interruptReturn_mem (s : State) : s.interruptReturn.mem = s.mem := by
  simp [interruptReturn]
@[simp] theorem interruptReturn_busMap (s : State) : s.interruptReturn.busMap = s.busMap := by
  simp [interruptReturn]

/-! ## The read-modify-write sequence -/

@[simp] theorem readModifyWrite_value (g : Byte → Bool → Byte × Bool) (ea : Word) (s : State) :
    (readModifyWrite g ea s).1 = (g (s.peek ea) s.flagC).1 := rfl
@[simp] theorem readModifyWrite_a (g : Byte → Bool → Byte × Bool) (ea : Word) (s : State) :
    (readModifyWrite g ea s).2.a = s.a := rfl
@[simp] theorem readModifyWrite_x (g : Byte → Bool → Byte × Bool) (ea : Word) (s : State) :
    (readModifyWrite g ea s).2.x = s.x := rfl
@[simp] theorem readModifyWrite_y (g : Byte → Bool → Byte × Bool) (ea : Word) (s : State) :
    (readModifyWrite g ea s).2.y = s.y := rfl
@[simp] theorem readModifyWrite_sp (g : Byte → Bool → Byte × Bool) (ea : Word) (s : State) :
    (readModifyWrite g ea s).2.sp = s.sp := rfl
@[simp] theorem readModifyWrite_pc (g : Byte → Bool → Byte × Bool) (ea : Word) (s : State) :
    (readModifyWrite g ea s).2.pc = s.pc := rfl
@[simp] theorem readModifyWrite_flagC (g : Byte → Bool → Byte × Bool) (ea : Word) (s : State) :
    (readModifyWrite g ea s).2.flagC = (g (s.peek ea) s.flagC).2 := rfl
@[simp] theorem readModifyWrite_flagZ (g : Byte → Bool → Byte × Bool) (ea : Word) (s : State) :
    (readModifyWrite g ea s).2.flagZ = s.flagZ := rfl
@[simp] theorem readModifyWrite_flagI (g : Byte → Bool → Byte × Bool) (ea : Word) (s : State) :
    (readModifyWrite g ea s).2.flagI = s.flagI := rfl
@[simp] theorem readModifyWrite_flagD (g : Byte → Bool → Byte × Bool) (ea : Word) (s : State) :
    (readModifyWrite g ea s).2.flagD = s.flagD := rfl
@[simp] theorem readModifyWrite_flagV (g : Byte → Bool → Byte × Bool) (ea : Word) (s : State) :
    (readModifyWrite g ea s).2.flagV = s.flagV := rfl
@[simp] theorem readModifyWrite_flagN (g : Byte → Bool → Byte × Bool) (ea : Word) (s : State) :
    (readModifyWrite g ea s).2.flagN = s.flagN := rfl
@[simp] theorem readModifyWrite_cyclesRemaining (g : Byte → Bool → Byte × Bool) (ea : Word) (s : State) :
    (readModifyWrite g ea s).2.cyclesRemaining = s.cyclesRemaining := rfl
@[simp] theorem readModifyWrite_nmiPending (g : Byte → Bool → Byte × Bool) (ea : Word) (s : State) :
    (readModifyWrite g ea s).2.nmiPending = s.nmiPending := rfl
@[simp] theorem readModifyWrite_irqPending (g : Byte → Bool → Byte × Bool) (ea : Word) (s : State) :
    (readModifyWrite g ea s).2.irqPending = s.irqPending := rfl
@[simp] theorem readModifyWrite_fault (g : Byte → Bool → Byte × Bool) (ea : Word) (s : State) :
    (readModifyWrite g ea s).2.fault = s.fault := rfl
@[simp] theorem readModifyWrite_mem (g : Byte → Bool → Byte × Bool) (ea : Word) (s : State) :
    (readModifyWrite g ea s).2.mem = s.stored ea (g (s.peek ea) s.flagC).1 := by
  simp only [readModifyWrite, busWrite_mem]; rfl
@[simp] theorem readModifyWrite_busMap (g : Byte → Bool → Byte × Bool) (ea : Word) (s : State) :
    (readModifyWrite g ea s).2.busMap = s.busMap := rfl
@[simp] theorem readModifyWrite_trace (g : Byte → Bool → Byte × Bool) (ea : Word) (s : State) :
    (readModifyWrite g ea s).2.trace = .write ea (g (s.peek ea) s.flagC).1 :: .read ea (s.peek ea) :: s.trace := rfl

/-! ## `peek` and `stored` after an update that touches nothing behind the bus -/

@[simp] theorem peek_setA (v : Byte) (s : State) (addr : Word) : (s.setA v).peek addr = s.peek addr := rfl
@[simp] theorem stored_setA (v : Byte) (s : State) (ea : Word) (w : Byte) :
    (s.setA v).stored ea w = s.stored ea w := rfl
@[simp] theorem peek_setX (v : Byte) (s : State) (addr : Word) : (s.setX v).peek addr = s.peek addr := rfl
@[simp] theorem stored_setX (v : Byte) (s : State) (ea : Word) (w : Byte) :
    (s.setX v).stored ea w = s.stored ea w := rfl
@[simp] theorem peek_setY (v : Byte) (s : State) (addr : Word) : (s.setY v).peek addr = s.peek addr := rfl
@[simp] theorem stored_setY (v : Byte) (s : State) (ea : Word) (w : Byte) :
    (s.setY v).stored ea w = s.stored ea w := rfl
@[simp] theorem peek_setSP (v : Byte) (s : State) (addr : Word) : (s.setSP v).peek addr = s.peek addr := rfl
@[simp] theorem stored_setSP (v : Byte) (s : State) (ea : Word) (w : Byte) :
    (s.setSP v).stored ea w = s.stored ea w := rfl
@[simp] theorem peek_setPC (v : Word) (s : State) (addr : Word) : (s.setPC v).peek addr = s.peek addr := rfl
@[simp] theorem stored_setPC (v : Word) (s : State) (ea : Word) (w : Byte) :
    (s.setPC v).stored ea w = s.stored ea w := rfl
@[simp] theorem peek_setC (b : Bool) (s : State) (addr : Word) : (s.setC b).peek addr = s.peek addr := rfl
@[simp] theorem stored_setC (b : Bool) (s : State) (ea : Word) (w : Byte) :
    (s.setC b).stored ea w = s.stored ea w := rfl
@[simp] theorem peek_setI (b : Bool) (s : State) (addr : Word) : (s.setI b).peek addr = s.peek addr := rfl
@[simp] theorem stored_setI (b : Bool) (s : State) (ea : Word) (w : Byte) :
    (s.setI b).stored ea w = s.stored ea w := rfl
@[simp] theorem peek_setD (b : Bool) (s : State) (addr : Word) : (s.setD b).peek addr = s.peek addr := rfl
@[simp] theorem stored_setD (b : Bool) (s : State) (ea : Word) (w : Byte) :
    (s.setD b).stored ea w = s.stored ea w := rfl
@[simp] theorem peek_setV (b : Bool) (s : State) (addr : Word) : (s.setV b).peek addr = s.peek addr := rfl
@[simp] theorem stored_setV (b : Bool) (s : State) (ea : Word) (w : Byte) :
    (s.setV b).stored ea w = s.stored ea w := rfl
@[simp] theorem peek_setCycles (n : Nat) (s : State) (addr : Word) : (s.setCycles n).peek addr = s.peek addr := rfl
@[simp] theorem stored_setCycles (n : Nat) (s : State) (ea : Word) (w : Byte) :
    (s.setCycles n).stored ea w = s.stored ea w := rfl
@[simp] theorem peek_setZN (v : Byte) (s : State) (addr : Word) : (s.setZN v).peek addr = s.peek addr := rfl
@[simp] theorem stored_setZN (v : Byte) (s : State) (ea : Word) (w : Byte) :
    (s.setZN v).stored ea w = s.stored ea w := rfl
@[simp] theorem peek_setP (v : Byte) (s : State) (addr : Word) : (s.setP v).peek addr = s.peek addr := rfl
@[simp] theorem stored_setP (v : Byte) (s : State) (ea : Word) (w : Byte) :
    (s.setP v).stored ea w = s.stored ea w := rfl
@[simp] theorem peek_triggerNmi (s : State) (addr : Word) : (s.triggerNmi).peek addr = s.peek addr := rfl
@[simp] theorem stored_triggerNmi (s : State) (ea : Word) (w : Byte) :
    (s.triggerNmi).stored ea w = s.stored ea w := rfl
@[simp] theorem peek_triggerIrq (s : State) (addr : Word) : (s.triggerIrq).peek addr = s.peek addr := rfl
@[simp] theorem stored_triggerIrq (s : State) (ea : Word) (w : Byte) :
    (s.triggerIrq).stored ea w = s.stored ea w := rfl
@[simp] theorem peek_idleTick (s : State) (addr : Word) : (s.idleTick).peek addr = s.peek addr := rfl
@[simp] theorem stored_idleTick (s : State) (ea : Word) (w : Byte) : (s.idleTick).stored ea w = s.stored ea w := rfl
@[simp] theorem peek_raiseUnimplemented (op : Byte) (s : State) (addr : Word) :
    (s.raiseUnimplemented op).peek addr = s.peek addr := rfl
@[simp] theorem stored_raiseUnimplemented (op : Byte) (s : State) (ea : Word) (w : Byte) :
    (s.raiseUnimplemented op).stored ea w = s.stored ea w := rfl
@[simp] theorem peek_addWithCarry (m : Byte) (s : State) (addr : Word) :
    (s.addWithCarry m).peek addr = s.peek addr := rfl
@[simp] theorem stored_addWithCarry (m : Byte) (s : State) (ea : Word) (w : Byte) :
    (s.addWithCarry m).stored ea w = s.stored ea w := rfl
@[simp] theorem peek_compare (r m : Byte) (s : State) (addr : Word) : (s.compare r m).peek addr = s.peek addr := rfl
@[simp] theorem stored_compare (r m : Byte) (s : State) (ea : Word) (w : Byte) :
    (s.compare r m).stored ea w = s.stored ea w := rfl
@[simp] theorem peek_bitTest (m : Byte) (s : State) (addr : Word) : (s.bitTest m).peek addr = s.peek addr := rfl
@[simp] theorem stored_bitTest (m : Byte) (s : State) (ea : Word) (w : Byte) :
    (s.bitTest m).stored ea w = s.stored ea w := rfl

/-! ## `charge` -/

@[simp] theorem charge_a (f : Form) (crossed : Bool) (taken : Nat) (s : State) :
    (s.charge f crossed taken).a = s.a := rfl
@[simp] theorem charge_x (f : Form) (crossed : Bool) (taken : Nat) (s : State) :
    (s.charge f crossed taken).x = s.x := rfl
@[simp] theorem charge_y (f : Form) (crossed : Bool) (taken : Nat) (s : State) :
    (s.charge f crossed taken).y = s.y := rfl
@[simp] theorem charge_sp (f : Form) (crossed : Bool) (taken : Nat) (s : State) :
    (s.charge f crossed taken).sp = s.sp := rfl
@[simp] theorem charge_pc (f : Form) (crossed : Bool) (taken : Nat) (s : State) :
    (s.charge f crossed taken).pc = s.pc := rfl
@[simp] theorem charge_flagC (f : Form) (crossed : Bool) (taken : Nat) (s : State) :
    (s.charge f crossed taken).flagC = s.flagC := rfl
@[simp] theorem charge_flagZ (f : Form) (crossed : Bool) (taken : Nat) (s : State) :
    (s.charge f crossed taken).flagZ = s.flagZ := rfl
@[simp] theorem charge_flagI (f : Form) (crossed : Bool) (taken : Nat) (s : State) :
    (s.charge f crossed taken).flagI = s.flagI := rfl
@[simp] theorem charge_flagD (f : Form) (crossed : Bool) (taken : Nat) (s : State) :
    (s.charge f crossed taken).flagD = s.flagD := rfl
@[simp] theorem charge_flagV (f : Form) (crossed : Bool) (taken : Nat) (s : State) :
    (s.charge f crossed taken).flagV = s.flagV := rfl
@[simp] theorem charge_flagN (f : Form) (crossed : Bool) (taken : Nat) (s : State) :
    (s.charge f crossed taken).flagN = s.flagN := rfl
@[simp] theorem charge_cyclesRemaining (f : Form) (crossed : Bool) (taken : Nat) (s : State) :
    (s.charge f crossed taken).cyclesRemaining = f.cycles + ((f.penalty == .cross && crossed).toNat + taken) - 1 := rfl
@[simp] theorem charge_nmiPending (f : Form) (crossed : Bool) (taken : Nat) (s : State) :
    (s.charge f crossed taken).nmiPending = s.nmiPending := rfl
@[simp] theorem charge_irqPending (f : Form) (crossed : Bool) (taken : Nat) (s : State) :
    (s.charge f crossed taken).irqPending = s.irqPending := rfl
@[simp] theorem charge_fault (f : Form) (crossed : Bool) (taken : Nat) (s : State) :
    (s.charge f crossed taken).fault = s.fault := rfl
@[simp] theorem charge_mem (f : Form) (crossed : Bool) (taken : Nat) (s : State) :
    (s.charge f crossed taken).mem = s.mem := rfl
@[simp] theorem charge_busMap (f : Form) (crossed : Bool) (taken : Nat) (s : State) :
    (s.charge f crossed taken).busMap = s.busMap := rfl
@[simp] theorem charge_trace (f : Form) (crossed : Bool) (taken : Nat) (s : State) :
    (s.charge f crossed taken).trace = s.trace := rfl

end Sys2Proof.Machine.State
end

