-- ==== Sys2Proof/Laws/Ops.lean ====
section
/-! SUPPORT. For each shared operation over the bus, the stack, the adder and the sequencer, what it answers, whole. -/

namespace Sys2Proof.Machine

theorem hi_toNat (w : Word) : (hi w).toNat = w.toNat / 256 := by
  simp only [hi, BitVec.extractLsb'_toNat, Nat.shiftRight_eq_div_pow]
  omega

theorem lo_toNat (w : Word) : (lo w).toNat = w.toNat % 256 := by
  simp only [lo, BitVec.extractLsb'_toNat, Nat.shiftRight_eq_div_pow]
  omega

theorem w16_toNat (h l : Byte) : (w16 h l).toNat = h.toNat * 256 + l.toNat := by
  simp only [w16, BitVec.toNat_append]
  rw [← Nat.shiftLeft_add_eq_or_of_lt l.isLt, Nat.shiftLeft_eq]

theorem w16_hi_lo (w : Word) : w16 (hi w) (lo w) = w := by
  apply BitVec.eq_of_toNat_eq
  rw [w16_toNat, hi_toNat, lo_toNat]
  omega

theorem lo_w16 (h l : Byte) : lo (w16 h l) = l := by
  apply BitVec.eq_of_toNat_eq
  rw [lo_toNat, w16_toNat]
  omega

theorem hi_w16 (h l : Byte) : hi (w16 h l) = h := by
  apply BitVec.eq_of_toNat_eq
  rw [hi_toNat, w16_toNat]
  omega

theorem zext16_toNat (b : Byte) : (zext16 b).toNat = b.toNat := by
  simp only [zext16]; bv_omega

theorem stackAddr_toNat (b : Byte) : (stackAddr b).toNat = 256 + b.toNat := by
  simp only [stackAddr, zext16]; bv_omega

theorem stackAddr_inj {a b : Byte} : stackAddr a = stackAddr b ↔ a = b := by
  constructor
  · intro h
    have := congrArg BitVec.toNat h
    simp only [stackAddr_toNat] at this
    bv_omega
  · exact congrArg _

theorem pageDiffers_iff (a b : Word) : pageDiffers a b = true ↔ a.toNat / 256 ≠ b.toNat / 256 := by
  simp only [pageDiffers, bne_iff_ne, ne_eq, ← BitVec.toNat_inj, hi_toNat]

namespace State

/-! ## The bus -/

/-- What a read returns depends on the contents, the windows and the trace alone. -/
theorem peek_congr {s t : State} (mem : t.mem = s.mem) (map : t.busMap = s.busMap) (tr : t.trace = s.trace)
    (a : Word) : t.peek a = s.peek a := by
  simp only [peek, mem, map, tr]

theorem peek_plain {s : State} {a : Word} (h : s.plain a) : s.peek a = s.mem.read a.toNat := by
  simp only [peek, h]

theorem busRead_eq (a : Word) (s : State) :
    s.busRead a = (s.peek a, { s with trace := .read a (s.peek a) :: s.trace }) := rfl

theorem busWrite_eq (a : Word) (v : Byte) (s : State) :
    s.busWrite a v = { s with mem := s.stored a v, trace := .write a v :: s.trace } := by
  simp only [busWrite, stored]
  split <;> simp_all

theorem stored_wf {s : State} (h : s.mem.wf = true) (a : Word) (v : Byte) : (s.stored a v).wf = true := by
  unfold stored
  split
  · exact Memory.wf_write h
  · exact h

/-- The contents after a write, byte by byte. -/
theorem read_stored {s : State} (h : s.mem.wf = true) (a : Word) (v : Byte) (b : Nat) :
    (s.stored a v).read b = if s.plain a ∧ b = a.toNat then v else s.mem.read b := by
  unfold stored
  by_cases hp : windowKind s.busMap a = none
  · simp [hp, plain, Memory.read_write h]
  · simp [hp]

theorem read_stored_other {s : State} (h : s.mem.wf = true) {a : Word} {v : Byte} {b : Nat} (ne : b ≠ a.toNat) :
    (s.stored a v).read b = s.mem.read b := by
  simp [read_stored h, ne]

/-! ## The stack and the 16-bit reads -/

theorem push_eq (v : Byte) (s : State) :
    s.push v =
      { s with
        mem := s.stored (stackAddr s.sp) v, sp := s.sp - 1, trace := .write (stackAddr s.sp) v :: s.trace } := by
  simp only [push, busWrite_eq, setSP]

theorem pull_eq (s : State) :
    s.pull =
      (s.peek (stackAddr (s.sp + 1)),
        { s with
          sp := s.sp + 1
          trace := .read (stackAddr (s.sp + 1)) (s.peek (stackAddr (s.sp + 1))) :: s.trace }) := rfl

/-- Two reads: the word, and the trace grown by both, the low byte's first. -/
theorem readPair_eq (aLow aHigh : Word) (s : State) : ∃ l h : Byte,
    l = s.peek aLow ∧ h = ({ s with trace := .read aLow l :: s.trace }).peek aHigh ∧
    s.readPair aLow aHigh =
      (w16 h l, { s with trace := .read aHigh h :: .read aLow l :: s.trace }) :=
  ⟨_, _, rfl, rfl, rfl⟩

/-! ## The adder and the compare -/

theorem addWithCarry_eq (m : Byte) (s : State) :
    s.addWithCarry m =
      { s with
        a := adderResult s.a m s.flagC, flagC := adderCarry s.a m s.flagC, flagV := adderOverflow s.a m s.flagC
        flagZ := adderResult s.a m s.flagC == 0, flagN := (adderResult s.a m s.flagC).getLsbD 7 } := rfl

theorem compare_eq (r m : Byte) (s : State) :
    s.compare r m =
      { s with flagC := m.toNat ≤ r.toNat, flagZ := r - m == 0, flagN := (r - m).getLsbD 7 } := rfl

theorem setP_eq (v : Byte) (s : State) :
    s.setP v =
      { s with
        flagN := v.getLsbD 7, flagV := v.getLsbD 6, flagD := v.getLsbD 3, flagI := v.getLsbD 2
        flagZ := v.getLsbD 1, flagC := v.getLsbD 0 } := rfl

/-! ## Exceptions -/

/-- All an entry can change: `SP`, `I`, `PC`, the contents and the trace. -/
theorem interruptEntry_frame (vector : Word) (b : Bool) (s : State) :
    s.interruptEntry vector b =
      { s with
        sp := s.sp - 1 - 1 - 1, flagI := true, pc := (s.interruptEntry vector b).pc
        mem := (s.interruptEntry vector b).mem, trace := (s.interruptEntry vector b).trace } := by
  simp only [interruptEntry, read16, readPair, push_eq, busRead_eq, setI, setPC]

/-- The contents after an entry: the three pushes, no other write. -/
theorem interruptEntry_mem (vector : Word) (b : Bool) (s : State) :
    (s.interruptEntry vector b).mem = (((s.push (hi s.pc)).push (lo s.pc)).push (s.pByte b)).mem := rfl

theorem push_mem_wf {s : State} (h : s.mem.wf = true) (v : Byte) : (s.push v).mem.wf = true := by
  rw [push_eq]; exact stored_wf h _ _

theorem interruptEntry_mem_wf {s : State} (h : s.mem.wf = true) (vector : Word) (b : Bool) :
    (s.interruptEntry vector b).mem.wf = true := by
  rw [interruptEntry_mem]
  exact push_mem_wf (push_mem_wf (push_mem_wf h _) _) _

/-- All a return can change: the six flags, `SP`, `PC` and the trace. -/
theorem interruptReturn_frame (s : State) :
    s.interruptReturn =
      { s with
        sp := s.sp + 1 + 1 + 1, flagN := s.interruptReturn.flagN, flagV := s.interruptReturn.flagV
        flagD := s.interruptReturn.flagD, flagI := s.interruptReturn.flagI, flagZ := s.interruptReturn.flagZ
        flagC := s.interruptReturn.flagC, pc := s.interruptReturn.pc, trace := s.interruptReturn.trace } := by
  simp only [interruptReturn, pull_eq, setP_eq, setPC]

/-- All `Reset` can change. -/
theorem resetEvent_frame (s : State) :
    s.resetEvent =
      { State.reset with
        pc := s.resetEvent.pc, mem := s.mem, busMap := s.busMap, trace := s.resetEvent.trace } := rfl

/-- `State.reset` is `Reset` of a state with nothing behind the bus and no transaction made yet. -/
theorem reset_eq_resetEvent (s : State) (mem : s.mem = []) (map : s.busMap = []) (tr : s.trace = []) :
    State.reset = s.resetEvent := by
  rw [resetEvent_frame]
  simp only [resetEvent, read16, readPair, busRead_eq, setPC, peek, mem, map, tr, windowKind]
  rfl

end State

end Sys2Proof.Machine
end

