-- ==== Sys2Proof/Laws/Operands.lean ====
section
/-! SUPPORT. What the resolver, the operand read and each execution shape answer, whole: later proofs cite these and
unfold none of them. -/

namespace Sys2Proof.Machine

/-! ## The resolver and the operand read -/

/-- The resolver changes nothing but the trace. -/
theorem resolve_frame (o : Operand) (s : State) : (resolve o s).2 = { s with trace := (resolve o s).2.trace } := by
  cases o <;> rfl

/-- A form without an address is Implied or Accumulator. -/
theorem resolve_ea_none (o : Operand) (s : State) : (resolve o s).1.ea = none ↔ o = .imp ∨ o = .acc := by
  cases o <;> simp [resolve, indexed]

theorem resolve_ea_some {o : Operand} (imp : o ≠ .imp) (acc : o ≠ .acc) (s : State) :
    ∃ ea, (resolve o s).1.ea = some ea := by
  rw [← Option.ne_none_iff_exists', ne_eq, resolve_ea_none]
  simp [imp, acc]

/-- The resolver of a form other than Implied and Accumulator: an address, and only the trace changed. -/
theorem resolvesTo {o : Operand} (imp : o ≠ .imp) (acc : o ≠ .acc) (s : State) :
    ∃ ea tr, (resolve o s).1.ea = some ea ∧ (resolve o s).2 = { s with trace := tr } ∧ s.ResolvesTo o ea tr := by
  obtain ⟨ea, h⟩ := resolve_ea_some imp acc s
  refine ⟨ea, _, h, resolve_frame o s, ?_⟩
  rw [State.ResolvesTo, State.addressOf, h, ← resolve_frame]
  rfl

/-- The operand read changes nothing but the trace. -/
theorem readOperand_frame (o : Operand) (ea : Word) (s : State) :
    (readOperand o ea s).2 = { s with trace := (readOperand o ea s).2.trace } := by
  cases o <;> rfl

/-- A form other than Implied and Accumulator has an operand byte, and reading it changes only the trace. -/
theorem reads {o : Operand} (imp : o ≠ .imp) (acc : o ≠ .acc) (s : State) :
    ∃ ea m tr, (resolve o s).1.ea = some ea ∧ readOperand o ea (resolve o s).2 = (m, { s with trace := tr }) ∧
      s.Reads o m tr := by
  obtain ⟨ea, h⟩ := resolve_ea_some imp acc s
  have hr : (readOperand o ea (resolve o s).2).2 =
      { s with trace := (readOperand o ea (resolve o s).2).2.trace } := by
    rw [readOperand_frame, resolve_frame]
  refine ⟨ea, (readOperand o ea (resolve o s).2).1, _, h, Prod.ext rfl hr, ?_⟩
  rw [State.Reads, State.operandOf, h, ← hr]
  rfl

/-! ## Cycles -/

theorem charge_eq (f : Form) (crossed : Bool) (taken : Nat) (s : State) :
    s.charge f crossed taken =
      { s with cyclesRemaining := f.cycles + ((f.penalty == .cross && crossed).toNat + taken) - 1 } := rfl

/-! ## The shapes -/

theorem runImplied_eq {i : Instr} {f : Form} (h : i.form = some f) (effect : State → State) (s : State) :
    runImplied i effect s = .next ((effect s).charge f false 0) := by
  simp only [runImplied, h]

theorem runAddressed_eq {i : Instr} {f : Form} {ea : Word} {s : State} (h : i.form = some f)
    (hea : (resolve i.operand s).1.ea = some ea) (effect : Word → Resolved → State → State) :
    runAddressed i effect s =
      .next ((effect ea (resolve i.operand s).1 (resolve i.operand s).2).charge f (resolve i.operand s).1.crossed 0) := by
  simp only [runAddressed, h, hea]

theorem runRead_eq {i : Instr} {f : Form} {ea : Word} {s : State} (h : i.form = some f)
    (hea : (resolve i.operand s).1.ea = some ea) (effect : Byte → State → State) :
    runRead i effect s =
      .next ((effect (readOperand i.operand ea (resolve i.operand s).2).1
        (readOperand i.operand ea (resolve i.operand s).2).2).charge f (resolve i.operand s).1.crossed 0) := by
  simp only [runRead, runAddressed_eq h hea]

theorem runStore_eq {i : Instr} {f : Form} {ea : Word} {s : State} (h : i.form = some f)
    (hea : (resolve i.operand s).1.ea = some ea) (value : State → Byte) :
    runStore i value s =
      .next (((resolve i.operand s).2.busWrite ea (value (resolve i.operand s).2)).charge f
        (resolve i.operand s).1.crossed 0) := by
  simp only [runStore, runAddressed_eq h hea]

theorem runModify_eq {i : Instr} {f : Form} {ea : Word} {s : State} (h : i.form = some f)
    (hea : (resolve i.operand s).1.ea = some ea) (g : Byte → Bool → Byte × Bool) (effect : Byte → State → State) :
    runModify i g effect s =
      .next ((effect (readModifyWrite g ea (resolve i.operand s).2).1
        (readModifyWrite g ea (resolve i.operand s).2).2).charge f (resolve i.operand s).1.crossed 0) := by
  simp only [runModify, runAddressed_eq h hea]

/-- The read-modify-write sequence: one read, one write of the result to the same address, and `C`. -/
theorem readModifyWrite_eq (g : Byte → Bool → Byte × Bool) (ea : Word) (s : State) :
    readModifyWrite g ea s =
      ((g (s.peek ea) s.flagC).1,
        { s with
          flagC := (g (s.peek ea) s.flagC).2
          mem := s.stored ea (g (s.peek ea) s.flagC).1
          trace := .write ea (g (s.peek ea) s.flagC).1 :: .read ea (s.peek ea) :: s.trace }) := by
  simp only [readModifyWrite, State.busWrite_eq]
  rfl

theorem runBranch_eq {i : Instr} {f : Form} (h : i.form = some f) (d : Byte) (cond : Bool) (s : State) :
    runBranch i d cond s =
      if cond then
        .next ((s.setPC (branchTarget d s)).charge f false (1 + (pageDiffers (branchTarget d s) s.pc).toNat))
      else .next (s.charge f false 0) := by
  simp only [runBranch, h]

/-! ## The shapes, from what they answer -/

/-- If an instruction without operand answers a next state, it is a row of the table and the state is its effect. -/
theorem runImplied_next {i : Instr} {effect : State → State} {s t : State} (h : runImplied i effect s = .next t) :
    ∃ f, i.form = some f ∧ t = (effect s).charge f false 0 := by
  unfold runImplied at h
  split at h
  · cases h
  · exact ⟨_, ‹_›, by cases h; rfl⟩

/-- If an instruction with an address answers a next state, it is a row of the table, its operand has an address, and
the state is its effect there, on a state that differs only in its trace. -/
theorem runAddressed_next {i : Instr} {effect : Word → Resolved → State → State} {s t : State}
    (h : runAddressed i effect s = .next t) :
    ∃ f ea tr, i.form = some f ∧ (resolve i.operand s).1.ea = some ea ∧
      (resolve i.operand s).2 = { s with trace := tr } ∧
      t = (effect ea (resolve i.operand s).1 { s with trace := tr }).charge f (resolve i.operand s).1.crossed 0 := by
  unfold runAddressed at h
  split at h
  · cases h
  · dsimp only at h
    split at h
    · cases h
    · exact ⟨_, _, (resolve i.operand s).2.trace, ‹_›, ‹_›, resolve_frame _ _, by rw [← resolve_frame]; cases h; rfl⟩

theorem resolvesTo_of {o : Operand} {s : State} {ea : Word} {tr : List BusTxn} (hea : (resolve o s).1.ea = some ea)
    (hs : (resolve o s).2 = { s with trace := tr }) : s.ResolvesTo o ea tr := by
  rw [State.ResolvesTo, State.addressOf, hea, hs]
  rfl

/-- If a read-class instruction answers a next state: the effect of the byte on a state that differs only in its
trace. -/
theorem runRead_next {i : Instr} {effect : Byte → State → State} {s t : State} (h : runRead i effect s = .next t) :
    ∃ f m tr, i.form = some f ∧ s.Reads i.operand m tr ∧
      t = (effect m { s with trace := tr }).charge f (resolve i.operand s).1.crossed 0 := by
  obtain ⟨f, ea, tr, hf, hea, hs, rfl⟩ := runAddressed_next h
  have hr : (readOperand i.operand ea { s with trace := tr }).2 =
      { s with trace := (readOperand i.operand ea { s with trace := tr }).2.trace } := readOperand_frame ..
  refine ⟨f, (readOperand i.operand ea { s with trace := tr }).1,
    (readOperand i.operand ea { s with trace := tr }).2.trace, hf, ?_, ?_⟩
  · rw [State.Reads, State.operandOf, hea, hs, ← hr]
    rfl
  · dsimp only
    rw [← hr]

/-- If a store-class instruction answers a next state: one write, and the trace. -/
theorem runStore_next {i : Instr} {value : State → Byte} {s t : State} (h : runStore i value s = .next t) :
    ∃ f ea tr, i.form = some f ∧ s.ResolvesTo i.operand ea tr ∧
      t = ((({ s with trace := tr } : State).busWrite ea (value { s with trace := tr })).charge f
        (resolve i.operand s).1.crossed 0) := by
  obtain ⟨f, ea, tr, hf, hea, hs, rfl⟩ := runAddressed_next h
  exact ⟨f, ea, tr, hf, resolvesTo_of hea hs, rfl⟩

/-- If a read-modify-write instruction answers a next state: the sequence at the address, then the effect. -/
theorem runModify_next {i : Instr} {g : Byte → Bool → Byte × Bool} {effect : Byte → State → State} {s t : State}
    (h : runModify i g effect s = .next t) :
    ∃ f ea tr, i.form = some f ∧ s.ResolvesTo i.operand ea tr ∧
      t = (effect (readModifyWrite g ea { s with trace := tr }).1
        (readModifyWrite g ea { s with trace := tr }).2).charge f (resolve i.operand s).1.crossed 0 := by
  obtain ⟨f, ea, tr, hf, hea, hs, rfl⟩ := runAddressed_next h
  exact ⟨f, ea, tr, hf, resolvesTo_of hea hs, rfl⟩

/-- If a shift or rotate answers a next state: in Accumulator mode `A`, `C`, `Z`, `N`, else the sequence at the
address and `Z`, `N`. -/
theorem runShift_next {i : Instr} {g : Byte → Bool → Byte × Bool} {s t : State} (h : runShift i g s = .next t) :
    ∃ f, i.form = some f ∧
      ((i.operand = .acc ∧
          t = (((s.setC (g s.a s.flagC).2).setA (g s.a s.flagC).1).setZN (g s.a s.flagC).1).charge f false 0) ∨
        (i.operand ≠ .acc ∧ ∃ ea tr, s.ResolvesTo i.operand ea tr ∧
          t = ((readModifyWrite g ea { s with trace := tr }).2.setZN
            (readModifyWrite g ea { s with trace := tr }).1).charge f (resolve i.operand s).1.crossed 0)) := by
  unfold runShift at h
  split at h
  · obtain ⟨f, hf, rfl⟩ := runImplied_next h
    exact ⟨f, hf, .inl ⟨‹_›, rfl⟩⟩
  · obtain ⟨f, ea, tr, hf, hr, rfl⟩ := runModify_next h
    exact ⟨f, hf, .inr ⟨by assumption, ea, tr, hr, rfl⟩⟩

/-- If a branch answers a next state: the target or not, and the cycles; nothing else changes. -/
theorem runBranch_next {i : Instr} {d : Byte} {cond : Bool} {s t : State} (h : runBranch i d cond s = .next t) :
    ∃ f n, i.form = some f ∧
      t = { s with pc := if cond then branchTarget d s else s.pc, cyclesRemaining := n } ∧
      n = f.cycles + ((f.penalty == .cross && false).toNat +
        if cond then 1 + (pageDiffers (branchTarget d s) s.pc).toNat else 0) - 1 := by
  unfold runBranch at h
  split at h
  · cases h
  · cases cond <;> exact ⟨_, _, ‹_›, by cases h; rfl, rfl⟩

/-- If a high-byte store answers a next state: the change of registers, then one write to the address of R279. -/
theorem runStoreHigh_next {i : Instr} {before : State → State} {value : State → Byte} {s t : State}
    (h : runStoreHigh i before value s = .next t) :
    ∃ f ea base crossed tr, i.form = some f ∧
      resolve i.operand s = (⟨some ea, some base, crossed⟩, { s with trace := tr }) ∧
      t = (storeHigh (value (before { s with trace := tr })) base ea crossed (before { s with trace := tr })).charge f
        crossed 0 := by
  unfold runStoreHigh at h
  split at h
  · rename_i f ea base crossed s1 hf hr
    have h1 : s1 = { s with trace := s1.trace } := by
      have := resolve_frame i.operand s
      rwa [hr] at this
    refine ⟨f, ea, base, crossed, s1.trace, hf, ?_, ?_⟩
    · rw [← h1]; exact hr
    · rw [← h1]; cases h; rfl
  · cases h

/-- The write of a high-byte store. -/
theorem storeHigh_eq (v0 : Byte) (base ea : Word) (crossed : Bool) (s : State) :
    storeHigh v0 base ea crossed s =
      s.busWrite (if crossed then w16 (hi ea &&& (v0 &&& (hi base + 1))) (lo ea) else ea) (v0 &&& (hi base + 1)) := rfl

/-! ## The result byte of the instructions whose result is not simply a register -/

theorem resultByte_cmp (o : Operand) (s t : State) :
    resultByte (.cmp o) s t = (s.operandOf o).map fun m => s.a - m.1 := rfl

theorem resultByte_cpx (o : Operand) (s t : State) :
    resultByte (.cpx o) s t = (s.operandOf o).map fun m => s.x - m.1 := rfl

theorem resultByte_cpy (o : Operand) (s t : State) :
    resultByte (.cpy o) s t = (s.operandOf o).map fun m => s.y - m.1 := rfl

/-- A shift or rotate, on `A` or on memory. -/
theorem resultByte_shift {i : Instr} (o : Operand) (shift : i = .asl o ∨ i = .lsr o ∨ i = .rol o ∨ i = .ror o)
    (s t : State) : resultByte i s t = if o = .acc then some t.a else t.lastWritten := by
  rcases shift with rfl | rfl | rfl | rfl <;> rfl

theorem resultByte_dcp (o : Operand) (s t : State) :
    resultByte (.dcp o) s t = t.lastWritten.map fun r => s.a - r := rfl

/-- What was written last is read off the trace. -/
theorem lastWritten_eq {t : State} {a : Word} {v : Byte} {older : List BusTxn} (h : t.trace = .write a v :: older) :
    t.lastWritten = some v := by
  simp [State.lastWritten, h]

end Sys2Proof.Machine
end

