-- ==== Sys2Proof/Laws/Step.lean ====
section
/-! SUPPORT. The cases of a tick, one lemma each, and what a fetch can do: later proofs cite these and do not unfold
`step`. -/

namespace Sys2Proof.Machine

/-- R129. -/
theorem step_halted {s : State} (h : s.fault ≠ none) : step s = .next s := by
  have : s.fault.isSome := by cases hs : s.fault <;> simp_all
  simp [step, State.nextAction, this]

/-- R122. -/
theorem step_idle {s : State} (running : s.fault = none) (busy : s.cyclesRemaining > 0) :
    step s = .next s.idleTick := by
  simp [step, State.nextAction, running, busy]

/-- R307. -/
theorem step_nmi {s : State} (running : s.fault = none) (done : s.cyclesRemaining = 0) (nmi : s.nmiPending = true) :
    step s = .next s.takeNmi := by
  simp [step, State.nextAction, running, done, nmi]

/-- R308. -/
theorem step_irq {s : State} (running : s.fault = none) (done : s.cyclesRemaining = 0) (nmi : s.nmiPending = false)
    (irq : s.irqPending = true) (enabled : s.flagI = false) : step s = .next s.takeIrq := by
  simp [step, State.nextAction, running, done, nmi, irq, enabled]

/-- R124. -/
theorem step_instruction {s : State} (h : s.AtInstruction) : step s = exec (fetch s).1 (fetch s).2 := by
  obtain ⟨running, done, nmi, irq⟩ := h
  have : s.nextAction = .instruction := by
    rcases irq with irq | irq <;> simp [State.nextAction, running, done, nmi, irq]
  simp [step, this]

/-- Every step is one of the five. -/
theorem step_cases (s : State) :
    (s.fault ≠ none ∧ step s = .next s) ∨
    (s.fault = none ∧ s.cyclesRemaining > 0 ∧ step s = .next s.idleTick) ∨
    (s.fault = none ∧ s.cyclesRemaining = 0 ∧ s.nmiPending = true ∧ step s = .next s.takeNmi) ∨
    (s.fault = none ∧ s.cyclesRemaining = 0 ∧ s.nmiPending = false ∧ s.irqPending = true ∧ s.flagI = false ∧
      step s = .next s.takeIrq) ∨
    (s.AtInstruction ∧ step s = exec (fetch s).1 (fetch s).2) := by
  by_cases running : s.fault = none
  · right
    rcases Nat.eq_zero_or_pos s.cyclesRemaining with done | busy
    · right
      cases nmi : s.nmiPending
      · right
        by_cases due : s.irqPending = true ∧ s.flagI = false
        · exact .inl ⟨running, done, rfl, due.1, due.2, step_irq running done nmi due.1 due.2⟩
        · have irq : s.irqPending = false ∨ s.flagI = true := by
            cases h1 : s.irqPending <;> cases h2 : s.flagI <;> simp_all
          have at_ : s.AtInstruction := ⟨running, done, nmi, irq⟩
          exact .inr ⟨at_, step_instruction at_⟩
      · exact .inl ⟨running, done, rfl, step_nmi running done nmi⟩
    · exact .inl ⟨running, busy, step_idle running busy⟩
  · exact .inl ⟨running, step_halted running⟩

/-- A fetch moves `PC` and adds to the trace, and nothing else. -/
theorem fetch_frame (s : State) : (fetch s).2 = { s with pc := (fetch s).2.pc, trace := (fetch s).2.trace } := by
  unfold fetch
  dsimp only
  split <;> rfl

end Sys2Proof.Machine
end

