-- ==== Sys2Proof/Tests/Slice0.lean ====
section
/-! SUPPORT. Tests of one step or one operation each, with the results of the spec's own tables and vectors
(95_test_vectors.md, R95), and for every statement with hypotheses a witness that meets them. -/

namespace Sys2Proof.Machine

/-! ## Helpers -/

/-- The default start state of 95_test_vectors.md, at address 0x8000. -/
def State.start : State := { State.reset with pc := 0x8000, trace := [] }

/-- The state with these bytes in memory. -/
def State.holding (cells : List (Nat × Byte)) (s : State) : State :=
  { s with mem := cells.foldl (fun m p => m.write p.1 p.2) s.mem }

/-- The flags as the vectors write them: `N V D I Z C`, one binary digit each. -/
def State.flags (s : State) : Nat :=
  s.flagN.toNat * 32 + s.flagV.toNat * 16 + s.flagD.toNat * 8 + s.flagI.toNat * 4 + s.flagZ.toNat * 2 +
    s.flagC.toNat

end Sys2Proof.Machine

namespace Sys2Proof.Tests

open Sys2Proof.Machine Sys2Proof.Machine.State

/-- The state after one step with the bytes placed at `PC`. -/
def after (bytes : List Byte) (s : State) : State :=
  match step (s.placeBytes bytes s.pc) with
  | .next t => t
  | .fault _ | .refused _ => s

/-- The bytes decode to the instruction, and nothing is left over. -/
def decodesTo (bytes : List Byte) (i : Instr) : Bool :=
  match decode bytes with
  | .ok (j, []) => i == j
  | .ok (_, _ :: _) | .error _ => false

/-! ## Well-formedness: for each check a term it refuses -/

/-- R160, R183 to R188. -/
theorem test_wf_read_class :
    [Instr.lda .acc, .lda (.zpy 1), .ora .imp, .and (.rel 1), .eor (.ind 1), .adc (.zpy 1), .sbc .acc, .cmp (.ind 1),
      .cmp .imp].all (fun i => !i.wellFormed) := by decide

/-- R161 to R165. -/
theorem test_wf_loads_and_stores :
    [Instr.ldx (.zpx 1), .ldx (.abx 1), .ldx (.izy 1), .ldy (.zpy 1), .ldy (.aby 1), .ldy .acc, .sta (.imm 1),
      .sta (.zpy 1), .stx (.imm 1), .stx (.zpx 1), .stx (.aby 1), .sty (.zpy 1), .sty (.abx 1),
      .sty (.imm 1)].all (fun i => !i.wellFormed) := by decide

/-- R189 to R191, R200 to R205, R229. -/
theorem test_wf_compare_shift_jump :
    [Instr.cpx (.zpx 1), .cpy (.abx 1), .cpy (.izx 1), .bit (.imm 1), .bit (.zpx 1), .asl (.imm 1), .lsr (.aby 1),
      .rol .imp, .ror (.zpy 1), .inc .acc, .dec (.imm 1), .dec (.izx 1), .jmp (.imm 1), .jmp (.abx 1),
      .jmp (.rel 1)].all (fun i => !i.wellFormed) := by decide

/-- R265 to R270, R272 to R274, R279, R284, R97. -/
theorem test_wf_undocumented :
    [Instr.slo (.imm 1), .rla .acc, .sre (.zpy 1), .rra .imp, .dcp (.ind 1), .isc (.imm 1), .sax (.imm 1),
      .sax (.aby 1), .lax (.imm 1), .lax (.zpx 1), .ahx (.abx 1), .ahx (.zp 1), .anc 0x4B 1, .nopU 0xEA .imp,
      .nopU 0x80 (.zp 1), .nopU 0x1A (.imm 1), .invalid 0xEA, .invalid 0xE2].all (fun i => !i.wellFormed) := by
  decide

/-- R303: such a term stops with the fault of R303. -/
theorem test_ill_formed_term_faults : exec (.sta (.imm 1)) start = .fault .unsupportedAddressingMode := rfl

/-! ## Decoding: every constructor, in words written out from R95 and R92 -/

theorem test_decode_loads_stores_transfers :
    decodesTo [0xA9, 0x05] (.lda (.imm 0x05)) && decodesTo [0xA5, 0x10] (.lda (.zp 0x10)) &&
    decodesTo [0xB5, 0xFF] (.lda (.zpx 0xFF)) && decodesTo [0xAD, 0x34, 0x12] (.lda (.abs 0x1234)) &&
    decodesTo [0xBD, 0xF0, 0x12] (.lda (.abx 0x12F0)) && decodesTo [0xB9, 0xFF, 0xFE] (.lda (.aby 0xFEFF)) &&
    decodesTo [0xA1, 0xFE] (.lda (.izx 0xFE)) && decodesTo [0xB1, 0x20] (.lda (.izy 0x20)) &&
    decodesTo [0xB6, 0xF0] (.ldx (.zpy 0xF0)) && decodesTo [0xBE, 0x80, 0x12] (.ldx (.aby 0x1280)) &&
    decodesTo [0xA0, 0x01] (.ldy (.imm 0x01)) && decodesTo [0xBC, 0x80, 0x12] (.ldy (.abx 0x1280)) &&
    decodesTo [0x9D, 0xF0, 0x12] (.sta (.abx 0x12F0)) && decodesTo [0x91, 0x20] (.sta (.izy 0x20)) &&
    decodesTo [0x96, 0xF0] (.stx (.zpy 0xF0)) && decodesTo [0x84, 0x10] (.sty (.zp 0x10)) &&
    decodesTo [0xAA] .tax && decodesTo [0xA8] .tay && decodesTo [0x8A] .txa && decodesTo [0x98] .tya &&
    decodesTo [0xBA] .tsx && decodesTo [0x9A] .txs := by decide

theorem test_decode_logic_arithmetic_compare :
    decodesTo [0x09, 0x0F] (.ora (.imm 0x0F)) && decodesTo [0x29, 0x0F] (.and (.imm 0x0F)) &&
    decodesTo [0x45, 0x10] (.eor (.zp 0x10)) && decodesTo [0x7D, 0x80, 0x12] (.adc (.abx 0x1280)) &&
    decodesTo [0x71, 0x20] (.adc (.izy 0x20)) && decodesTo [0xE9, 0xF0] (.sbc (.imm 0xF0)) &&
    decodesTo [0xF9, 0x01, 0x02] (.sbc (.aby 0x0201)) && decodesTo [0xC9, 0x40] (.cmp (.imm 0x40)) &&
    decodesTo [0xC1, 0x40] (.cmp (.izx 0x40)) && decodesTo [0xE4, 0x10] (.cpx (.zp 0x10)) &&
    decodesTo [0xC0, 0x80] (.cpy (.imm 0x80)) && decodesTo [0x24, 0x10] (.bit (.zp 0x10)) &&
    decodesTo [0x2C, 0x34, 0x12] (.bit (.abs 0x1234)) := by decide

theorem test_decode_shift_increment :
    decodesTo [0x0A] (.asl .acc) && decodesTo [0x06, 0x10] (.asl (.zp 0x10)) && decodesTo [0x4A] (.lsr .acc) &&
    decodesTo [0x4E, 0x34, 0x12] (.lsr (.abs 0x1234)) && decodesTo [0x2A] (.rol .acc) &&
    decodesTo [0x36, 0xF0] (.rol (.zpx 0xF0)) && decodesTo [0x6A] (.ror .acc) &&
    decodesTo [0x7E, 0xF0, 0x12] (.ror (.abx 0x12F0)) && decodesTo [0xE6, 0x10] (.inc (.zp 0x10)) &&
    decodesTo [0xDE, 0x00, 0x02] (.dec (.abx 0x0200)) && decodesTo [0xE8] .inx && decodesTo [0xC8] .iny &&
    decodesTo [0xCA] .dex && decodesTo [0x88] .dey := by decide

theorem test_decode_branch_jump :
    decodesTo [0x10, 0x02] (.bpl 0x02) && decodesTo [0x30, 0x80] (.bmi 0x80) && decodesTo [0x50, 0xFE] (.bvc 0xFE) &&
    decodesTo [0x70, 0x10] (.bvs 0x10) && decodesTo [0x90, 0x12] (.bcc 0x12) && decodesTo [0xB0, 0x7F] (.bcs 0x7F) &&
    decodesTo [0xD0, 0xF8] (.bne 0xF8) && decodesTo [0xF0, 0x04] (.beq 0x04) &&
    decodesTo [0x4C, 0x00, 0x90] (.jmp (.abs 0x9000)) && decodesTo [0x6C, 0xFF, 0x30] (.jmp (.ind 0x30FF)) &&
    decodesTo [0x20, 0x00, 0x90] (.jsr 0x9000) && decodesTo [0x60] .rts := by decide

theorem test_decode_stack_flag_system :
    decodesTo [0x48] .pha && decodesTo [0x08] .php && decodesTo [0x68] .pla && decodesTo [0x28] .plp &&
    decodesTo [0x18] .clc && decodesTo [0x38] .sec && decodesTo [0x58] .cli && decodesTo [0x78] .sei &&
    decodesTo [0xB8] .clv && decodesTo [0xD8] .cld && decodesTo [0xF8] .sed && decodesTo [0xEA] .nop &&
    decodesTo [0x00] .brk && decodesTo [0x40] .rti := by decide

theorem test_decode_undocumented :
    decodesTo [0x03, 0x20] (.slo (.izx 0x20)) && decodesTo [0x27, 0x10] (.rla (.zp 0x10)) &&
    decodesTo [0x5B, 0x01, 0x02] (.sre (.aby 0x0201)) && decodesTo [0x73, 0x10] (.rra (.izy 0x10)) &&
    decodesTo [0xDF, 0xF0, 0x12] (.dcp (.abx 0x12F0)) && decodesTo [0xEF, 0x34, 0x12] (.isc (.abs 0x1234)) &&
    decodesTo [0x97, 0x10] (.sax (.zpy 0x10)) && decodesTo [0xBF, 0x01, 0x02] (.lax (.aby 0x0201)) &&
    decodesTo [0xAB, 0x5A] (.laxImm 0x5A) && decodesTo [0xBB, 0x00, 0x20] (.las 0x2000) &&
    decodesTo [0x0B, 0x80] (.anc 0x0B 0x80) && decodesTo [0x2B, 0x7F] (.anc 0x2B 0x7F) &&
    decodesTo [0x4B, 0x03] (.alr 0x03) && decodesTo [0x6B, 0xFF] (.arr 0xFF) && decodesTo [0x8B, 0x11] (.xaa 0x11) &&
    decodesTo [0xCB, 0x10] (.axs 0x10) && decodesTo [0x9F, 0x00, 0x12] (.ahx (.aby 0x1200)) &&
    decodesTo [0x93, 0x20] (.ahx (.izy 0x20)) && decodesTo [0x9C, 0xC0, 0x40] (.shy 0x40C0) &&
    decodesTo [0x9E, 0x00, 0x12] (.shx 0x1200) && decodesTo [0x9B, 0x00, 0x20] (.tas 0x2000) &&
    decodesTo [0x1A] (.nopU 0x1A .imp) && decodesTo [0x80, 0xFF] (.nopU 0x80 (.imm 0xFF)) &&
    decodesTo [0x0C, 0x34, 0x12] (.nopU 0x0C (.abs 0x1234)) && decodesTo [0xEB, 0x01] (.sbcU 0x01) &&
    decodesTo [0x02] (.invalid 0x02) && decodesTo [0xF2] (.invalid 0xF2) := by decide

/-- Too few bytes are refused by name. -/
theorem test_decode_missing_bytes :
    (match decode [] with | .error .noOpcode => true | _ => false) &&
    (match decode [0xAD, 0x34] with | .error (.missingOperand 0xAD) => true | _ => false) := by decide

/-- The table's numbering: the first byte is the low one, operand bytes not given are zero. -/
theorem test_decode_table_word :
    decodeTableWord 24 0x1234AD = some (.lda (.abs 0x1234)) ∧ decodeTableWord 8 0x4C = some (.jmp (.abs 0)) ∧
    decodeTableWord 16 0xFB50 = some (.bvc 0xFB) ∧ decodeTableWord 8 0x02 = some (.invalid 0x02) := by decide

/-! ## The checks on the opcode table of 95_test_vectors.md, part 3 -/

/-- The instruction a row makes of operand bytes of zero. -/
def sample (r : Row) : Option Instr :=
  match r.shape with
  | .invalid => none
  | .f1 i => some i
  | .f2 make => some (make 0)
  | .f3 make => some (make 0)

/-- The rows of a mode. -/
def rowsOf (m : Mode) : Nat := opcodeTable.countP fun r => (sample r).map (fun i => i.operand.mode) == some m

/-- The rows of a base cycle count. -/
def rowsTaking (n : Nat) : Nat := opcodeTable.countP fun r => r.cycles == n

/-- An instruction of 47_undocumented.md, the sentinel apart. -/
def undocumented : Instr → Bool
  | .slo _ | .rla _ | .sre _ | .rra _ | .dcp _ | .isc _ | .sax _ | .lax _ | .laxImm _ | .las _ | .anc _ _ | .alr _
  | .arr _ | .xaa _ | .axs _ | .ahx _ | .shy _ | .shx _ | .tas _ | .nopU _ _ | .sbcU _ => true
  | _ => false

theorem test_table_classes :
    opcodeTable.countP (fun r => (sample r).any fun i => !undocumented i) = 151 ∧
    opcodeTable.countP (fun r => (sample r).any undocumented) = 93 ∧
    opcodeTable.countP (fun r => (sample r).isNone) = 12 := by decide +kernel

theorem test_table_modes :
    [rowsOf .zp, rowsOf .abs, rowsOf .imp, rowsOf .zpx, rowsOf .abx, rowsOf .imm, rowsOf .aby] =
      [32, 32, 31, 28, 28, 24, 20] ∧
    [rowsOf .izx, rowsOf .izy, rowsOf .rel, rowsOf .acc, rowsOf .zpy, rowsOf .ind] = [16, 16, 8, 4, 4, 1] := by
  decide +kernel

theorem test_table_cycles :
    [rowsTaking 2, rowsTaking 3, rowsTaking 4, rowsTaking 5, rowsTaking 6, rowsTaking 7, rowsTaking 8] =
      [60, 23, 64, 27, 39, 19, 12] ∧
    (opcodeTable.map Row.cycles).sum = 1043 := by decide +kernel

theorem test_table_penalties_and_lengths :
    opcodeTable.countP (fun r => r.penalty == .cross) = 32 ∧
    opcodeTable.countP (fun r => r.penalty == .branch) = 8 ∧
    (opcodeTable.map fun r => (sample r).elim 0 fun _ => 1 + r.shape.operandBytes).sum = 534 := by decide +kernel

/-! ## One-step vectors of 95_test_vectors.md, part 2 -/

/-! ### Load, store, transfer -/

/-- V42-8: `LDA $12F0,X`. -/
theorem test_lda_V42_8 :
    let t := after [0xBD, 0xF0, 0x12] (({ start with x := 0x10 }).holding [(0x1300, 0x22)])
    t.pc = 0x8003 ∧ t.cyclesRemaining + 1 = 5 ∧ t.a = 0x22 ∧ t.flags = 0b000100 := by decide

/-- V42-10: `LDA ($FE,X)`. -/
theorem test_lda_V42_10 :
    let t := after [0xA1, 0xFE] (({ start with x := 0x01 }).holding [
      (0x0000, 0x12), (0x00FF, 0x34), (0x0100, 0x77), (0x1234, 0x5A)])
    t.pc = 0x8002 ∧ t.cyclesRemaining + 1 = 6 ∧ t.a = 0x5A ∧ t.flags = 0b000100 := by decide

/-- V42-14: `LDX $F0,Y`. -/
theorem test_ldx_V42_14 :
    let t := after [0xB6, 0xF0] (({ start with y := 0x20 }).holding [(0x0010, 0x08)])
    t.pc = 0x8002 ∧ t.cyclesRemaining + 1 = 4 ∧ t.x = 0x08 ∧ t.flags = 0b000100 := by decide

/-- V42-16: `LDY $1280,X`. -/
theorem test_ldy_V42_16 :
    let t := after [0xBC, 0x80, 0x12] (({ start with x := 0x7F }).holding [(0x12FF, 0x00)])
    t.pc = 0x8003 ∧ t.cyclesRemaining + 1 = 4 ∧ t.flags = 0b000110 := by decide

/-- V42-18: `STA ($20),Y`. -/
theorem test_sta_V42_18 :
    let t := after [0x91, 0x20] (({ start with a := 0xCD, y := 0x10 }).holding [(0x0020, 0xF8), (0x0021, 0x12)])
    t.pc = 0x8002 ∧ t.cyclesRemaining + 1 = 6 ∧ t.flags = 0b000100 ∧ t.mem.read 0x1308 = 0xCD := by decide

/-- V42-20: `STX $F0,Y`. -/
theorem test_stx_V42_20 :
    let t := after [0x96, 0xF0] { start with x := 0x77, y := 0x11 }
    t.pc = 0x8002 ∧ t.cyclesRemaining + 1 = 4 ∧ t.flags = 0b000100 ∧ t.mem.read 0x0001 = 0x77 := by decide

/-- V42-21: `STY $10`. -/
theorem test_sty_V42_21 :
    let t := after [0x84, 0x10] { start with y := 0x00 }
    t.pc = 0x8002 ∧ t.cyclesRemaining + 1 = 3 ∧ t.flags = 0b000100 ∧ t.mem.read 0x0010 = 0x00 := by decide

/-- V42-22: `TAX`. -/
theorem test_tax_V42_22 :
    let t := after [0xAA] { start with a := 0x80 }
    t.pc = 0x8001 ∧ t.cyclesRemaining + 1 = 2 ∧ t.x = 0x80 ∧ t.flags = 0b100100 := by decide

/-- V42-23: `TAY`. -/
theorem test_tay_V42_23 :
    let t := after [0xA8] { start with a := 0x00, y := 0x05 }
    t.pc = 0x8001 ∧ t.cyclesRemaining + 1 = 2 ∧ t.y = 0x00 ∧ t.flags = 0b000110 := by decide

/-- V42-24: `TXA`. -/
theorem test_txa_V42_24 :
    let t := after [0x8A] { start with a := 0xFF, x := 0x7F, flagN := true }
    t.pc = 0x8001 ∧ t.cyclesRemaining + 1 = 2 ∧ t.a = 0x7F ∧ t.flags = 0b000100 := by decide

/-- V42-25: `TYA`. -/
theorem test_tya_V42_25 :
    let t := after [0x98] { start with y := 0xF0 }
    t.pc = 0x8001 ∧ t.cyclesRemaining + 1 = 2 ∧ t.a = 0xF0 ∧ t.flags = 0b100100 := by decide

/-- V42-26: `TSX`. -/
theorem test_tsx_V42_26 :
    let t := after [0xBA] start
    t.pc = 0x8001 ∧ t.cyclesRemaining + 1 = 2 ∧ t.x = 0xFD ∧ t.flags = 0b100100 := by decide

/-- V42-27: `TXS`. -/
theorem test_txs_V42_27 :
    let t := after [0x9A] { start with x := 0x00, flagN := true }
    t.pc = 0x8001 ∧ t.cyclesRemaining + 1 = 2 ∧ t.sp = 0x00 ∧ t.flags = 0b100100 := by decide

/-! ### Logic, arithmetic, compare, bit test -/

/-- V43-1: `ORA #$0F`. -/
theorem test_ora_V43_1 :
    let t := after [0x09, 0x0F] { start with a := 0xF0 }
    t.pc = 0x8002 ∧ t.cyclesRemaining + 1 = 2 ∧ t.a = 0xFF ∧ t.flags = 0b100100 := by decide

/-- V43-2: `AND #$0F`. -/
theorem test_and_V43_2 :
    let t := after [0x29, 0x0F] { start with a := 0xF0 }
    t.pc = 0x8002 ∧ t.cyclesRemaining + 1 = 2 ∧ t.a = 0x00 ∧ t.flags = 0b000110 := by decide

/-- V43-4: `EOR $10`. -/
theorem test_eor_V43_4 :
    let t := after [0x45, 0x10] (({ start with a := 0xAA }).holding [(0x0010, 0xAA)])
    t.pc = 0x8002 ∧ t.cyclesRemaining + 1 = 3 ∧ t.a = 0x00 ∧ t.flags = 0b000110 := by decide

/-- V43-8: `ADC #$90`. -/
theorem test_adc_V43_8 :
    let t := after [0x69, 0x90] { start with a := 0x90 }
    t.pc = 0x8002 ∧ t.cyclesRemaining + 1 = 2 ∧ t.a = 0x20 ∧ t.flags = 0b010101 := by decide

/-- V43-9: `ADC #$01`. -/
theorem test_adc_V43_9 :
    let t := after [0x69, 0x01] { start with a := 0x09, flagD := true }
    t.pc = 0x8002 ∧ t.cyclesRemaining + 1 = 2 ∧ t.a = 0x0A ∧ t.flags = 0b001100 := by decide

/-- V43-16: `SBC #$01`. -/
theorem test_sbc_V43_16 :
    let t := after [0xE9, 0x01] { start with a := 0x80, flagC := true }
    t.pc = 0x8002 ∧ t.cyclesRemaining + 1 = 2 ∧ t.a = 0x7F ∧ t.flags = 0b010101 := by decide

/-- V43-14: `SBC #$00`. -/
theorem test_sbc_V43_14 :
    let t := after [0xE9, 0x00] { start with a := 0x00, flagC := false }
    t.pc = 0x8002 ∧ t.cyclesRemaining + 1 = 2 ∧ t.a = 0xFF ∧ t.flags = 0b100100 := by decide

/-- V43-20: `CMP #$41`. -/
theorem test_cmp_V43_20 :
    let t := after [0xC9, 0x41] { start with a := 0x40 }
    t.pc = 0x8002 ∧ t.cyclesRemaining + 1 = 2 ∧ t.flags = 0b100100 := by decide

/-- V43-21: `CMP #$01`. -/
theorem test_cmp_V43_21 :
    let t := after [0xC9, 0x01] { start with a := 0x80, flagV := true }
    t.pc = 0x8002 ∧ t.cyclesRemaining + 1 = 2 ∧ t.flags = 0b010101 := by decide

/-- V43-23: `CPX $10`. -/
theorem test_cpx_V43_23 :
    let t := after [0xE4, 0x10] (({ start with x := 0x05 }).holding [(0x0010, 0x04)])
    t.pc = 0x8002 ∧ t.cyclesRemaining + 1 = 3 ∧ t.flags = 0b000101 := by decide

/-- V43-24: `CPY #$80`. -/
theorem test_cpy_V43_24 :
    let t := after [0xC0, 0x80] { start with y := 0x7F }
    t.pc = 0x8002 ∧ t.cyclesRemaining + 1 = 2 ∧ t.flags = 0b100100 := by decide

/-- V43-25: `BIT $10`. -/
theorem test_bit_V43_25 :
    let t := after [0x24, 0x10] (({ start with a := 0x00 }).holding [(0x0010, 0xC0)])
    t.pc = 0x8002 ∧ t.cyclesRemaining + 1 = 3 ∧ t.flags = 0b110110 := by decide

/-- V43-26: `BIT $1234`. -/
theorem test_bit_V43_26 :
    let t := after [0x2C, 0x34, 0x12] (({ start with a := 0x01, flagV := true, flagN := true }).holding [
      (0x1234, 0x01)])
    t.pc = 0x8003 ∧ t.cyclesRemaining + 1 = 4 ∧ t.flags = 0b000100 := by decide

/-! ### Shift, rotate, increment, decrement -/

/-- V44-2: `ASL A`. -/
theorem test_asl_V44_2 :
    let t := after [0x0A] { start with a := 0x80 }
    t.pc = 0x8001 ∧ t.cyclesRemaining + 1 = 2 ∧ t.a = 0x00 ∧ t.flags = 0b000111 := by decide

/-- V44-3: `ASL $10`. -/
theorem test_asl_V44_3 :
    let t := after [0x06, 0x10] (({ start with a := 0x55 }).holding [(0x0010, 0x40)])
    t.pc = 0x8002 ∧ t.cyclesRemaining + 1 = 5 ∧ t.flags = 0b100100 ∧ t.mem.read 0x0010 = 0x80 := by decide

/-- V44-4: `LSR A`. -/
theorem test_lsr_V44_4 :
    let t := after [0x4A] { start with a := 0x01, flagN := true }
    t.pc = 0x8001 ∧ t.cyclesRemaining + 1 = 2 ∧ t.a = 0x00 ∧ t.flags = 0b000111 := by decide

/-- V44-5: `LSR $1234`. -/
theorem test_lsr_V44_5 :
    let t := after [0x4E, 0x34, 0x12] (start.holding [(0x1234, 0xFE)])
    t.pc = 0x8003 ∧ t.cyclesRemaining + 1 = 6 ∧ t.flags = 0b000100 ∧ t.mem.read 0x1234 = 0x7F := by decide

/-- V44-6: `ROL A`. -/
theorem test_rol_V44_6 :
    let t := after [0x2A] { start with a := 0x40, flagC := true }
    t.pc = 0x8001 ∧ t.cyclesRemaining + 1 = 2 ∧ t.a = 0x81 ∧ t.flags = 0b100100 := by decide

/-- V44-7: `ROL $F0,X`. -/
theorem test_rol_V44_7 :
    let t := after [0x36, 0xF0] (({ start with x := 0x20, flagC := false }).holding [(0x0010, 0x80)])
    t.pc = 0x8002 ∧ t.cyclesRemaining + 1 = 6 ∧ t.flags = 0b000111 ∧ t.mem.read 0x0010 = 0x00 := by decide

/-- V44-8: `ROR A`. -/
theorem test_ror_V44_8 :
    let t := after [0x6A] { start with a := 0x02, flagC := true }
    t.pc = 0x8001 ∧ t.cyclesRemaining + 1 = 2 ∧ t.a = 0x81 ∧ t.flags = 0b100100 := by decide

/-- V44-9: `ROR $12F0,X`. -/
theorem test_ror_V44_9 :
    let t := after [0x7E, 0xF0, 0x12] (({ start with x := 0x20, flagC := false }).holding [(0x1310, 0x01)])
    t.pc = 0x8003 ∧ t.cyclesRemaining + 1 = 7 ∧ t.flags = 0b000111 ∧ t.mem.read 0x1310 = 0x00 := by decide

/-- V44-10: `INC $10`. -/
theorem test_inc_V44_10 :
    let t := after [0xE6, 0x10] (({ start with flagC := true }).holding [(0x0010, 0xFF)])
    t.pc = 0x8002 ∧ t.cyclesRemaining + 1 = 5 ∧ t.flags = 0b000111 ∧ t.mem.read 0x0010 = 0x00 := by decide

/-- V44-13: `DEC $10,X`. -/
theorem test_dec_V44_13 :
    let t := after [0xD6, 0x10] (({ start with x := 0x01 }).holding [(0x0011, 0x00)])
    t.pc = 0x8002 ∧ t.cyclesRemaining + 1 = 6 ∧ t.flags = 0b100100 ∧ t.mem.read 0x0011 = 0xFF := by decide

/-- V44-14: `INX`. -/
theorem test_inx_V44_14 :
    let t := after [0xE8] { start with x := 0xFF }
    t.pc = 0x8001 ∧ t.cyclesRemaining + 1 = 2 ∧ t.x = 0x00 ∧ t.flags = 0b000110 := by decide

/-- V44-15: `INY`. -/
theorem test_iny_V44_15 :
    let t := after [0xC8] { start with y := 0x7F }
    t.pc = 0x8001 ∧ t.cyclesRemaining + 1 = 2 ∧ t.y = 0x80 ∧ t.flags = 0b100100 := by decide

/-- V44-16: `DEX`. -/
theorem test_dex_V44_16 :
    let t := after [0xCA] { start with x := 0x00 }
    t.pc = 0x8001 ∧ t.cyclesRemaining + 1 = 2 ∧ t.x = 0xFF ∧ t.flags = 0b100100 := by decide

/-- V44-17: `DEY`. -/
theorem test_dey_V44_17 :
    let t := after [0x88] { start with y := 0x01 }
    t.pc = 0x8001 ∧ t.cyclesRemaining + 1 = 2 ∧ t.y = 0x00 ∧ t.flags = 0b000110 := by decide

/-! ### Branch, jump, subroutine -/

/-- V45-4: `BPL $8004`. -/
theorem test_bpl_V45_4 :
    let t := after [0x10, 0x02] { start with flagN := false }
    t.pc = 0x8004 ∧ t.cyclesRemaining + 1 = 3 ∧ t.flags = 0b000100 := by decide

/-- V45-5: `BMI $8004`. -/
theorem test_bmi_V45_5 :
    let t := after [0x30, 0x02] { start with flagN := false }
    t.pc = 0x8002 ∧ t.cyclesRemaining + 1 = 2 ∧ t.flags = 0b000100 := by decide

/-- V45-6: `BMI $7F82`. -/
theorem test_bmi_V45_6 :
    let t := after [0x30, 0x80] { start with flagN := true }
    t.pc = 0x7F82 ∧ t.cyclesRemaining + 1 = 4 ∧ t.flags = 0b100100 := by decide

/-- V45-7: `BVC $8000`. -/
theorem test_bvc_V45_7 :
    let t := after [0x50, 0xFE] { start with flagV := false }
    t.pc = 0x8000 ∧ t.cyclesRemaining + 1 = 3 ∧ t.flags = 0b000100 := by decide

/-- V45-8: `BVS $8012`. -/
theorem test_bvs_V45_8 :
    let t := after [0x70, 0x10] { start with flagV := true }
    t.pc = 0x8012 ∧ t.cyclesRemaining + 1 = 3 ∧ t.flags = 0b010100 := by decide

/-- V45-9: `BCC $8012`. -/
theorem test_bcc_V45_9 :
    let t := after [0x90, 0x10] { start with flagC := true }
    t.pc = 0x8002 ∧ t.cyclesRemaining + 1 = 2 ∧ t.flags = 0b000101 := by decide

/-- V45-11: `BCC $0010`. -/
theorem test_bcc_V45_11 :
    let t := after [0x90, 0x12] { start with pc := 0xFFFC, flagC := false }
    t.pc = 0x0010 ∧ t.cyclesRemaining + 1 = 4 ∧ t.flags = 0b000100 := by decide

/-- V45-10: `BCS $8081`. -/
theorem test_bcs_V45_10 :
    let t := after [0xB0, 0x7F] { start with flagC := true }
    t.pc = 0x8081 ∧ t.cyclesRemaining + 1 = 3 ∧ t.flags = 0b000101 := by decide

/-- V45-3: `BNE $8004`. -/
theorem test_bne_V45_3 :
    let t := after [0xD0, 0xF8] { start with pc := 0x800A, flagZ := false }
    t.pc = 0x8004 ∧ t.cyclesRemaining + 1 = 3 ∧ t.flags = 0b000100 := by decide

/-- V45-12: `BNE $8100`. -/
theorem test_bne_V45_12 :
    let t := after [0xD0, 0x00] { start with pc := 0x80FE, flagZ := false }
    t.pc = 0x8100 ∧ t.cyclesRemaining + 1 = 3 ∧ t.flags = 0b000100 := by decide

/-- V45-1: `BEQ $8100`. -/
theorem test_beq_V45_1 :
    let t := after [0xF0, 0x04] { start with pc := 0x80FA, flagZ := true }
    t.pc = 0x8100 ∧ t.cyclesRemaining + 1 = 4 ∧ t.flags = 0b000110 := by decide

/-- V45-2: `BEQ $8100`. -/
theorem test_beq_V45_2 :
    let t := after [0xF0, 0x04] { start with pc := 0x80FA, flagZ := false }
    t.pc = 0x80FC ∧ t.cyclesRemaining + 1 = 2 ∧ t.flags = 0b000100 := by decide

/-- V45-13: `JMP $9000`. -/
theorem test_jmp_V45_13 :
    let t := after [0x4C, 0x00, 0x90] { start with pc := 0x1234 }
    t.pc = 0x9000 ∧ t.cyclesRemaining + 1 = 3 ∧ t.flags = 0b000100 := by decide

/-- V45-14: `JMP ($30FF)`. -/
theorem test_jmp_V45_14 :
    let t := after [0x6C, 0xFF, 0x30] (start.holding [(0x3000, 0x50), (0x30FF, 0x80), (0x3100, 0x40)])
    t.pc = 0x5080 ∧ t.cyclesRemaining + 1 = 5 ∧ t.flags = 0b000100 := by decide

/-- V45-17: `JSR $9000`. -/
theorem test_jsr_V45_17 :
    let t := after [0x20, 0x00, 0x90] { start with sp := 0x00 }
    t.pc = 0x9000 ∧ t.cyclesRemaining + 1 = 6 ∧ t.sp = 0xFE ∧ t.flags = 0b000100 ∧ t.mem.read 0x0100 = 0x80 ∧
      t.mem.read 0x01FF = 0x02 := by decide

/-- V45-19: `RTS`. -/
theorem test_rts_V45_19 :
    let t := after [0x60] (({ start with sp := 0xFF }).holding [(0x0100, 0xFF), (0x0101, 0xFF)])
    t.pc = 0x0000 ∧ t.cyclesRemaining + 1 = 6 ∧ t.sp = 0x01 ∧ t.flags = 0b000100 := by decide

/-! ### Stack, flag, system -/

/-- V46-1: `PHA`. -/
theorem test_pha_V46_1 :
    let t := after [0x48] { start with a := 0x42 }
    t.pc = 0x8001 ∧ t.cyclesRemaining + 1 = 3 ∧ t.sp = 0xFC ∧ t.flags = 0b000100 ∧
      t.mem.read 0x01FD = 0x42 := by decide

/-- V46-3: `PLA`. -/
theorem test_pla_V46_3 :
    let t := after [0x68] (({ start with sp := 0xFF }).holding [(0x0100, 0x80)])
    t.pc = 0x8001 ∧ t.cyclesRemaining + 1 = 4 ∧ t.a = 0x80 ∧ t.sp = 0x00 ∧ t.flags = 0b100100 := by decide

/-- V46-5: `PHP`. -/
theorem test_php_V46_5 :
    let t := after [0x08] { start with flagC := true, flagI := false, flagN := true }
    t.pc = 0x8001 ∧ t.cyclesRemaining + 1 = 3 ∧ t.sp = 0xFC ∧ t.flags = 0b100001 ∧
      t.mem.read 0x01FD = 0xB1 := by decide

/-- V46-6: `PLP`. -/
theorem test_plp_V46_6 :
    let t := after [0x28] (({ start with sp := 0xFC }).holding [(0x01FD, 0xFF)])
    t.pc = 0x8001 ∧ t.cyclesRemaining + 1 = 4 ∧ t.sp = 0xFD ∧ t.flags = 0b111111 := by decide

/-- V46-8: `PLP`. -/
theorem test_plp_V46_8 :
    let t := after [0x28] (({ start with sp := 0xFC, flagC := true, flagN := true }).holding [(0x01FD, 0x30)])
    t.pc = 0x8001 ∧ t.cyclesRemaining + 1 = 4 ∧ t.sp = 0xFD ∧ t.flags = 0b000000 := by decide

/-- V46-9: `CLC`. -/
theorem test_clc_V46_9 :
    let t := after [0x18] { start with flagC := true }
    t.pc = 0x8001 ∧ t.cyclesRemaining + 1 = 2 ∧ t.flags = 0b000100 := by decide

/-- V46-10: `SEC`. -/
theorem test_sec_V46_10 :
    let t := after [0x38] start
    t.pc = 0x8001 ∧ t.cyclesRemaining + 1 = 2 ∧ t.flags = 0b000101 := by decide

/-- V46-11: `CLI`. -/
theorem test_cli_V46_11 :
    let t := after [0x58] start
    t.pc = 0x8001 ∧ t.cyclesRemaining + 1 = 2 ∧ t.flags = 0b000000 := by decide

/-- V46-12: `SEI`. -/
theorem test_sei_V46_12 :
    let t := after [0x78] { start with flagI := false }
    t.pc = 0x8001 ∧ t.cyclesRemaining + 1 = 2 ∧ t.flags = 0b000100 := by decide

/-- V46-13: `CLV`. -/
theorem test_clv_V46_13 :
    let t := after [0xB8] { start with flagV := true }
    t.pc = 0x8001 ∧ t.cyclesRemaining + 1 = 2 ∧ t.flags = 0b000100 := by decide

/-- V46-14: `CLD`. -/
theorem test_cld_V46_14 :
    let t := after [0xD8] { start with flagD := true }
    t.pc = 0x8001 ∧ t.cyclesRemaining + 1 = 2 ∧ t.flags = 0b000100 := by decide

/-- V46-15: `SED`. -/
theorem test_sed_V46_15 :
    let t := after [0xF8] start
    t.pc = 0x8001 ∧ t.cyclesRemaining + 1 = 2 ∧ t.flags = 0b001100 := by decide

/-- V46-16: `NOP`. -/
theorem test_nop_V46_16 :
    let t := after [0xEA] start
    t.pc = 0x8001 ∧ t.cyclesRemaining + 1 = 2 ∧ t.flags = 0b000100 := by decide

/-- V46-17: `BRK`. -/
theorem test_brk_V46_17 :
    let t := after [0x00, 0xEA] (({ start with flagI := false }).holding [(0xFFFE, 0x00), (0xFFFF, 0x90)])
    t.pc = 0x9000 ∧ t.cyclesRemaining + 1 = 7 ∧ t.sp = 0xFA ∧ t.flags = 0b000100 ∧ t.mem.read 0x01FD = 0x80 ∧
      t.mem.read 0x01FC = 0x02 ∧ t.mem.read 0x01FB = 0x30 := by decide

/-- V46-18: `BRK`. -/
theorem test_brk_V46_18 :
    let t := after [0x00, 0xEA] (({ start with flagC := true, flagI := true, flagD := true, flagN := true }).holding [
      (0xFFFE, 0x00), (0xFFFF, 0x90)])
    t.pc = 0x9000 ∧ t.cyclesRemaining + 1 = 7 ∧ t.sp = 0xFA ∧ t.flags = 0b101101 ∧ t.mem.read 0x01FD = 0x80 ∧
      t.mem.read 0x01FC = 0x02 ∧ t.mem.read 0x01FB = 0xBD := by decide

/-- V46-20: `RTI`. -/
theorem test_rti_V46_20 :
    let t := after [0x40] (({ start with pc := 0x9000, sp := 0xFA, flagI := true }).holding [
      (0x01FB, 0xCB), (0x01FC, 0x34), (0x01FD, 0x12)])
    t.pc = 0x1234 ∧ t.cyclesRemaining + 1 = 6 ∧ t.sp = 0xFD ∧ t.flags = 0b111011 := by decide

/-! ### Undocumented -/

/-- V47-34: `SLO ($20,X)`. -/
theorem test_slo_V47_34 :
    let t := after [0x03, 0x20] (({ start with a := 0x00, x := 0x00 }).holding [
      (0x0020, 0x00), (0x0021, 0x03), (0x0300, 0xC0)])
    t.pc = 0x8002 ∧ t.cyclesRemaining + 1 = 8 ∧ t.a = 0x80 ∧ t.flags = 0b100101 ∧
      t.mem.read 0x0300 = 0x80 := by decide

/-- V47-2: `RLA $10`. -/
theorem test_rla_V47_2 :
    let t := after [0x27, 0x10] (({ start with a := 0xFF, flagC := true }).holding [(0x0010, 0x40)])
    t.pc = 0x8002 ∧ t.cyclesRemaining + 1 = 5 ∧ t.a = 0x81 ∧ t.flags = 0b100100 ∧
      t.mem.read 0x0010 = 0x81 := by decide

/-- V47-3: `SRE $10`. -/
theorem test_sre_V47_3 :
    let t := after [0x47, 0x10] (({ start with a := 0xFF }).holding [(0x0010, 0x03)])
    t.pc = 0x8002 ∧ t.cyclesRemaining + 1 = 5 ∧ t.a = 0xFE ∧ t.flags = 0b100101 ∧
      t.mem.read 0x0010 = 0x01 := by decide

/-- V47-4: `RRA $10`. -/
theorem test_rra_V47_4 :
    let t := after [0x67, 0x10] (({ start with a := 0x10, flagC := false }).holding [(0x0010, 0x03)])
    t.pc = 0x8002 ∧ t.cyclesRemaining + 1 = 5 ∧ t.a = 0x12 ∧ t.flags = 0b000100 ∧
      t.mem.read 0x0010 = 0x01 := by decide

/-- V47-35: `DCP $12F0,X`. -/
theorem test_dcp_V47_35 :
    let t := after [0xDF, 0xF0, 0x12] (({ start with a := 0x00, x := 0x20 }).holding [(0x1310, 0x01)])
    t.pc = 0x8003 ∧ t.cyclesRemaining + 1 = 7 ∧ t.flags = 0b000111 ∧ t.mem.read 0x1310 = 0x00 := by decide

/-- V47-11: `ISC $10`. -/
theorem test_isc_V47_11 :
    let t := after [0xE7, 0x10] (({ start with a := 0x10, flagC := true }).holding [(0x0010, 0x0F)])
    t.pc = 0x8002 ∧ t.cyclesRemaining + 1 = 5 ∧ t.a = 0x00 ∧ t.flags = 0b000111 ∧
      t.mem.read 0x0010 = 0x10 := by decide

/-- V47-5: `SAX $10`. -/
theorem test_sax_V47_5 :
    let t := after [0x87, 0x10] { start with a := 0xF0, x := 0x3C, flagN := true }
    t.pc = 0x8002 ∧ t.cyclesRemaining + 1 = 3 ∧ t.flags = 0b100100 ∧ t.mem.read 0x0010 = 0x30 := by decide

/-- V47-7: `LAX ($20),Y`. -/
theorem test_lax_V47_7 :
    let t := after [0xB3, 0x20] (({ start with y := 0x10 }).holding [(0x0020, 0xF8), (0x0021, 0x12), (0x1308, 0x00)])
    t.pc = 0x8002 ∧ t.cyclesRemaining + 1 = 6 ∧ t.flags = 0b000110 := by decide

/-- V47-12: `ANC #$80`. -/
theorem test_anc_V47_12 :
    let t := after [0x0B, 0x80] { start with a := 0xFF }
    t.pc = 0x8002 ∧ t.cyclesRemaining + 1 = 2 ∧ t.a = 0x80 ∧ t.flags = 0b100101 := by decide

/-- V47-13: `ANC #$7F`. -/
theorem test_anc_V47_13 :
    let t := after [0x2B, 0x7F] { start with a := 0xFF, flagC := true }
    t.pc = 0x8002 ∧ t.cyclesRemaining + 1 = 2 ∧ t.a = 0x7F ∧ t.flags = 0b000100 := by decide

/-- V47-14: `ALR #$03`. -/
theorem test_alr_V47_14 :
    let t := after [0x4B, 0x03] { start with a := 0xFF }
    t.pc = 0x8002 ∧ t.cyclesRemaining + 1 = 2 ∧ t.a = 0x01 ∧ t.flags = 0b000101 := by decide

/-- V47-16: `ARR #$80`. -/
theorem test_arr_V47_16 :
    let t := after [0x6B, 0x80] { start with a := 0x80, flagC := false }
    t.pc = 0x8002 ∧ t.cyclesRemaining + 1 = 2 ∧ t.a = 0x40 ∧ t.flags = 0b010101 := by decide

/-- V47-20: `AXS #$31`. -/
theorem test_axs_V47_20 :
    let t := after [0xCB, 0x31] { start with a := 0xF0, x := 0x3F }
    t.pc = 0x8002 ∧ t.cyclesRemaining + 1 = 2 ∧ t.x = 0xFF ∧ t.flags = 0b100100 := by decide

/-- V47-21: `AHX $1200,Y`. -/
theorem test_ahx_V47_21 :
    let t := after [0x9F, 0x00, 0x12] { start with a := 0xFF, x := 0xFF, y := 0x01 }
    t.pc = 0x8003 ∧ t.cyclesRemaining + 1 = 5 ∧ t.flags = 0b000100 ∧ t.mem.read 0x1201 = 0x13 := by decide

/-- V47-22: `AHX ($20),Y`. -/
theorem test_ahx_V47_22 :
    let t := after [0x93, 0x20] (({ start with a := 0xFF, x := 0x0F, y := 0x01 }).holding [
      (0x0020, 0x00), (0x0021, 0x12)])
    t.pc = 0x8002 ∧ t.cyclesRemaining + 1 = 6 ∧ t.flags = 0b000100 ∧ t.mem.read 0x1201 = 0x03 := by decide

/-- V47-24: `SHY $40C0,X`. -/
theorem test_shy_V47_24 :
    let t := after [0x9C, 0xC0, 0x40] { start with x := 0x80, y := 0x0F }
    t.pc = 0x8003 ∧ t.cyclesRemaining + 1 = 5 ∧ t.flags = 0b000100 ∧ t.mem.read 0x0140 = 0x01 := by decide

/-- V47-25: `SHX $1200,Y`. -/
theorem test_shx_V47_25 :
    let t := after [0x9E, 0x00, 0x12] { start with x := 0x0F, y := 0x02 }
    t.pc = 0x8003 ∧ t.cyclesRemaining + 1 = 5 ∧ t.flags = 0b000100 ∧ t.mem.read 0x1202 = 0x03 := by decide

/-- V47-26: `TAS $2000,Y`. -/
theorem test_tas_V47_26 :
    let t := after [0x9B, 0x00, 0x20] { start with a := 0xF3, x := 0x3F, y := 0x00 }
    t.pc = 0x8003 ∧ t.cyclesRemaining + 1 = 5 ∧ t.sp = 0x33 ∧ t.flags = 0b000100 ∧
      t.mem.read 0x2000 = 0x21 := by decide

/-- V47-27: `LAS $2000,Y`. -/
theorem test_las_V47_27 :
    let t := after [0xBB, 0x00, 0x20] (({ start with y := 0x01, sp := 0xF0 }).holding [(0x2001, 0x3C)])
    t.pc = 0x8003 ∧ t.cyclesRemaining + 1 = 4 ∧ t.a = 0x30 ∧ t.x = 0x30 ∧ t.sp = 0x30 ∧
      t.flags = 0b000100 := by decide

/-- V47-29: `NOP $12F0,X`. -/
theorem test_nop_V47_29 :
    let t := after [0x1C, 0xF0, 0x12] (({ start with x := 0x10 }).holding [(0x1300, 0x99)])
    t.pc = 0x8003 ∧ t.cyclesRemaining + 1 = 5 ∧ t.flags = 0b000100 := by decide

/-- V47-30: `NOP #$FF`. -/
theorem test_nop_V47_30 :
    let t := after [0x80, 0xFF] start
    t.pc = 0x8002 ∧ t.cyclesRemaining + 1 = 2 ∧ t.flags = 0b000100 := by decide

/-- V47-32: `SBC #$01 (0xEB)`. -/
theorem test_sbc_V47_32 :
    let t := after [0xEB, 0x01] { start with a := 0x00, flagC := true }
    t.pc = 0x8002 ∧ t.cyclesRemaining + 1 = 2 ∧ t.a = 0xFF ∧ t.flags = 0b100100 := by decide

/-! ### `MAGIC`, the sentinel -/

/-- V47-8, V47-9: `LAX #$5A` with `MAGIC` 0xFF and 0x00. -/
theorem test_laxImm_V47_8_9 : laxImmResult 0xFF 0x00 0x5A = 0x5A ∧ laxImmResult 0x00 0x0F 0x5A = 0x0A := by decide

/-- V47-17, V47-18: `XAA #$11` with `MAGIC` 0xFF and 0xEE. -/
theorem test_xaa_V47_17_18 : xaaResult 0xFF 0x00 0xFF 0x11 = 0x11 ∧ xaaResult 0xEE 0x00 0xFF 0x11 = 0x00 := by decide

/-- `LAX #` and `XAA` run, whatever `MAGIC` is. -/
theorem test_magic_instructions_run :
    (after [0xAB, 0x5A] start).pc = 0x8002 ∧ (after [0xAB, 0x5A] start).cyclesRemaining = 1 ∧
    (after [0x8B, 0x11] start).pc = 0x8002 ∧ (after [0x8B, 0x11] start).x = 0x00 := by decide

/-- V47-33: `INVALID` 0x02. -/
theorem test_invalid_V47_33 :
    let t := after [0x02, 0x00] { start with a := 0x12, flagN := true }
    t.faultOut = some (1, 0x02, 0x8000) ∧ t.pcOut = 0x8000 ∧ t.cyclesRemaining = 0 ∧ t.a = 0x12 ∧
      t.flags = 0b100100 ∧ t.trace = [.read 0x8000 0x02] := by decide

/-! ## The bus -/

/-- V45-14: the pointer reads of `JMP ($30FF)`, in order, and nothing else. -/
theorem test_bus_pointer_reads_V45_14 :
    (after [0x6C, 0xFF, 0x30] (start.holding [(0x3000, 0x50), (0x30FF, 0x80), (0x3100, 0x40)])).trace.reverse =
      [.read 0x8000 0x6C, .read 0x8001 0xFF, .read 0x8002 0x30, .read 0x30FF 0x80, .read 0x3000 0x50] := by decide

/-- V47-35: a read-modify-write reads once and writes once. -/
theorem test_bus_modify_V47_35 :
    (after [0xDF, 0xF0, 0x12] (({ start with x := 0x20 }).holding [(0x1310, 0x01)])).trace.reverse =
      [.read 0x8000 0xDF, .read 0x8001 0xF0, .read 0x8002 0x12, .read 0x1310 0x01, .write 0x1310 0x00] := by decide

/-- V46-17: `BRK` does not read its padding byte, and pushes before it reads the vector. -/
theorem test_bus_brk_V46_17 :
    (after [0x00, 0xEA] (({ start with flagI := false }).holding [(0xFFFE, 0x00), (0xFFFF, 0x90)])).trace.reverse =
      [.read 0x8000 0x00, .write 0x01FD 0x80, .write 0x01FC 0x02, .write 0x01FB 0x30, .read 0xFFFE 0x00,
        .read 0xFFFF 0x90] := by decide

/-- R61, R62 (log 2): a read-only window keeps its contents, plain memory beside it does not. -/
theorem test_bus_windows :
    let s : State := (({ start with busMap := [⟨0xC000, 0xFFFF, .rom⟩] }).holding [(0xC000, 0x12)])
    (s.busWrite 0xC000 0x55).peek 0xC000 = 0x12 ∧ (s.busWrite 0xBFFF 0x55).peek 0xBFFF = 0x55 := by decide

/-- R4, R61 (log 16): every unmapped address reads `FILL`, whatever the contents and whatever byte `FILL` is. -/
theorem test_bus_unmapped :
    let s : State := (({ start with busMap := [⟨0x4000, 0x4FFF, .unmapped⟩] }).holding [(0x4000, 0x34)])
    s.peek 0x4000 = Config.fill ∧ s.peek 0x4FFF = Config.fill ∧
      (s.busWrite 0x4000 0x55).peek 0x4000 = Config.fill := ⟨rfl, rfl, rfl⟩

/-! ## Reset, interrupts, ticks (95_test_vectors.md, part 4) -/

/-- The reset state is what `Reset` makes of the empty bus (log 7). -/
theorem test_reset_state : State.reset = ({ State.reset with pc := 0, trace := [] } : State).resetEvent := by decide

/-- S0. -/
theorem test_reset_S0 :
    let s : State := (({ start with
      a := 0x55, sp := 0x10, flagC := true, flagI := false, nmiPending := true, cyclesRemaining := 4
      fault := some ⟨.unimplementedOpcode, 0x02, 0x1234⟩ }).holding [(0xFFFC, 0x00), (0xFFFD, 0x80)])
    let t := s.resetEvent
    t = { start.holding [(0xFFFC, 0x00), (0xFFFD, 0x80)] with trace := [.read 0xFFFD 0x80, .read 0xFFFC 0x00] } := by
  decide

/-- S1: the IRQ entry at tick 3. -/
theorem test_irq_S1 :
    let s : State := ({ start with pc := 0x8001, flagI := false, irqPending := true }).holding
      [(0xFFFE, 0x00), (0xFFFF, 0x90)]
    let t := after [] s
    t.pc = 0x9000 ∧ t.sp = 0xFA ∧ t.flagI = true ∧ t.irqPending = false ∧ t.cyclesRemaining = 6 ∧
      t.trace.reverse =
        [.write 0x01FD 0x80, .write 0x01FC 0x01, .write 0x01FB 0x20, .read 0xFFFE 0x00, .read 0xFFFF 0x90] := by
  decide

/-- S2: the NMI entry at tick 1. -/
theorem test_nmi_S2 :
    let s : State := ({ start with nmiPending := true }).holding [(0xFFFA, 0x00), (0xFFFB, 0xA0)]
    let t := after [] s
    t.pc = 0xA000 ∧ t.sp = 0xFA ∧ t.nmiPending = false ∧ t.cyclesRemaining = 6 ∧ t.mem.read 0x01FB = 0x24 := by
  decide

/-- S3: an IRQ waits while `I` is set. -/
theorem test_masked_irq_S3 :
    let t := after [0xEA] { start with irqPending := true }
    t.pc = 0x8001 ∧ t.irqPending = true ∧ t.cyclesRemaining = 1 := by decide

/-- S5: a latched NMI waits through an Idle tick. -/
theorem test_idle_S5 :
    after [] { start with cyclesRemaining := 3, nmiPending := true } =
      { start with cyclesRemaining := 2, nmiPending := true } := by decide

/-- R129: a tick while faulted changes nothing. -/
theorem test_faulted_tick :
    let s : State := { start with fault := some ⟨.unimplementedOpcode, 0x02, 0x8000⟩, nmiPending := true }
    after [] s = s := by decide

/-- R42, D12. -/
theorem test_tick_before_reset :
    (Block.beforeReset start).presentAll [.tick, .reset] = .refused .tickBeforeReset ∧
    (Block.beforeReset start).presentAll [.triggerNmi, .reset, .triggerIrq] =
      .next (.running start.resetEvent.triggerIrq) := ⟨rfl, rfl⟩

/-! ## `withFetchWord` -/

/-- The first step after reset runs the row's instruction (log 7); `PC` wraps from 0xFFFF. -/
theorem test_fetch_word_runs_from_reset :
    (match step (State.reset.withFetchWord 16 0x05A9) with
      | .next t => t.a == 0x05 && t.pc == 0x0001 && t.cyclesRemaining == 1
      | _ => false) &&
    (match step (State.reset.withFetchWord 24 0x90004C) with
      | .next t => t.pc == 0x9000 && t.cyclesRemaining == 2
      | _ => false) &&
    (match step (State.reset.withFetchWord 8 0x02) with
      | .next t => t.faultOut == some (1, 0x02, 0xFFFF)
      | _ => false) := by decide

/-! ## Witnesses: for each statement with hypotheses, states and operands that meet them -/

/-- The start state with a fault latched as R128 leaves it. -/
def faulted : State := { start with fault := some ⟨.unimplementedOpcode, 0x02, 0x8000⟩ }

/-- Start is an instruction step (R121). -/
theorem start_atInstruction : start.AtInstruction := ⟨rfl, rfl, rfl, .inr rfl⟩

/-- Plain memory answers everywhere at the start. -/
theorem start_plainStack : start.PlainStack := fun _ => rfl

theorem witness_IdleTicksDrainToDispatch :
    ({ start with cyclesRemaining := 7 } : State).fault = none ∧
    ({ start with cyclesRemaining := 1 } : State).cyclesRemaining > 0 := by decide

theorem witness_FaultIsStickyUntilReset : faulted.fault ≠ none := by decide

theorem witness_InterruptsAreTakenAtDispatch :
    (let s : State := { start with nmiPending := true }
     s.fault = none ∧ s.cyclesRemaining = 0 ∧ s.nmiPending = true) ∧
    (let s : State := { start with irqPending := true, flagI := false }
     s.fault = none ∧ s.cyclesRemaining = 0 ∧ s.nmiPending = false ∧ s.irqPending = true ∧ s.flagI = false) ∧
    (let s : State := { start with nmiPending := true, irqPending := true }
     s.fault = none ∧ s.cyclesRemaining = 0 ∧ s.nmiPending = true ∧ s.irqPending = true) := by decide

/-- One byte, three bytes, the sentinel, and an opcode at the last address. -/
theorem witness_StepRunsTheDecodedInstruction :
    start.AtInstruction ∧
    decode (start.placeBytes [0xEA] 0x8000).codeBytes = .ok (.nop, [0xFF, 0xFF]) ∧
    decode (start.placeBytes [0x02] 0x8000).codeBytes = .ok (.invalid 0x02, [0xFF, 0xFF]) ∧
    decode (start.placeBytes [0x4C, 0x00, 0x90] 0x8000).codeBytes = .ok (.jmp (.abs 0x9000), []) ∧
    decode (({ start with pc := 0xFFFF } : State).placeBytes [0xA9, 0x05] 0xFFFF).codeBytes =
      .ok (.lda (.imm 0x05), [0xFF]) := ⟨start_atInstruction, rfl, rfl, rfl, rfl⟩

theorem witness_InvalidOpcodeSetsTheFaultLatch :
    (0x02 : Byte) ∈ invalidOpcodes ∧ (0xF2 : Byte) ∈ invalidOpcodes ∧
    (start.placeBytes [0x02] 0x8000).AtInstruction ∧
    (start.placeBytes [0x02] 0x8000).peek (start.placeBytes [0x02] 0x8000).pc ∈ invalidOpcodes :=
  ⟨by decide, by decide, ⟨rfl, rfl, rfl, .inr rfl⟩, by decide⟩

theorem witness_RowsCompleteAndOtherTermsFault :
    (Instr.lda (.imm 0)).WellFormed ∧ (Instr.invalid 0xF2).WellFormed ∧ ¬ (Instr.sta (.imm 0)).WellFormed ∧
    ¬ (Instr.nopU 0xEA .imp).WellFormed := by decide

/-- An idle tick, a faulted tick, an instruction and the sentinel, each from a state that meets the invariant. -/
theorem witness_StepKeepsTheInvariant :
    (({ start with cyclesRemaining := 7 } : State).Inv ∧
      step { start with cyclesRemaining := 7 } = .next { start with cyclesRemaining := 6 }) ∧
    (faulted.Inv ∧ step faulted = .next faulted) ∧
    (start.Inv ∧ ∃ t, step start = .next t) ∧
    ((start.placeBytes [0x02] 0x8000).Inv ∧ ∃ t, step (start.placeBytes [0x02] 0x8000) = .next t ∧ t.fault ≠ none) :=
  ⟨⟨⟨rfl, by decide, rfl⟩, rfl⟩, ⟨⟨rfl, by decide, rfl⟩, rfl⟩, ⟨⟨rfl, by decide, rfl⟩, _, rfl⟩,
    ⟨rfl, by decide, rfl⟩, _, rfl, by decide⟩

theorem witness_EventsKeepTheInvariant :
    start.Inv ∧ (start.holding [(0x0000, 0x12), (0xFFFF, 0x34)]).mem.wf = true := ⟨⟨rfl, by decide, rfl⟩, rfl⟩

theorem witness_StepOnlyExtendsTheTrace :
    (∃ t, step start = .next t) ∧ (∃ t, step faulted = .next t) ∧
    (∃ t, step { start with cyclesRemaining := 1 } = .next t) := ⟨⟨_, rfl⟩, ⟨_, rfl⟩, _, rfl⟩

theorem witness_DecodeOfEncodeIsTheInstruction :
    (Instr.brk).WellFormed ∧ (Instr.las 0xFFFF).WellFormed ∧ (Instr.anc 0x2B 0xFF).WellFormed ∧
    (Instr.nopU 0xFC (.abx 0)).WellFormed ∧ (Instr.invalid 0x02).WellFormed := by decide

theorem witness_EncodeOfDecodeIsTheBytes :
    decode [0xFF, 0x34, 0x12, 0x00] = .ok (.isc (.abx 0x1234), [0x00]) ∧
    decode [0x02, 0x34] = .ok (.invalid 0x02, [0x34]) := ⟨rfl, rfl⟩

theorem witness_PageCrossPenaltyIsTheReadClass :
    (Instr.lda (.abx 0)).form = some ⟨0xBD, 4, .cross⟩ ∧ (Instr.sta (.abx 0)).form = some ⟨0x9D, 5, .never⟩ ∧
    (Instr.beq 0).form = some ⟨0xF0, 2, .branch⟩ := by decide

/-- `JMP ($30FF)`, `($FE,X)` with `X = 1` and `($FF),Y`: the high byte wraps in its page. -/
theorem witness_PointerModesResolve :
    (0x3000 : Word).toNat = (0x30FF : Word).toNat / 256 * 256 + ((0x30FF : Word).toNat + 1) % 256 ∧
    (0x00FF : Word).toNat = ((0xFE : Byte).toNat + ({ start with x := 0x01 } : State).x.toNat) % 256 ∧
    (0x0000 : Word).toNat = ((0xFE : Byte).toNat + ({ start with x := 0x01 } : State).x.toNat + 1) % 256 ∧
    (0x00FF : Word).toNat = (0xFF : Byte).toNat ∧ (0x0000 : Word).toNat = ((0xFF : Byte).toNat + 1) % 256 := by
  decide

/-- Each clause: a pointer at the end of the zero page, an Immediate operand, and both forms without an address. -/
theorem witness_OperandAccessChangesOnlyTheTrace :
    (∃ m s1, start.operandOf (.izy 0xFF) = some (m, s1)) ∧ (∃ m s1, start.operandOf (.imm 0) = some (m, s1)) ∧
    (∀ d, Operand.izy 0xFF ≠ .imm d) ∧ (∃ ea s1, start.addressOf (.izy 0xFF) = some (ea, s1)) ∧
    start.addressOf .imp = none ∧ start.addressOf .acc = none :=
  ⟨⟨_, _, rfl⟩, ⟨_, _, rfl⟩, fun _ => nofun, ⟨_, _, rfl⟩, rfl, rfl⟩

/-- A load, a compare, a shift of `A`, a shift of memory and a decrement with compare, with their result bytes. -/
theorem witness_ZeroNegativeLaw :
    (writesZN (.lda (.imm 0)) = true ∧ (∀ o, Instr.lda (.imm 0) ≠ .bit o) ∧ Instr.lda (.imm 0) ≠ .plp ∧
      Instr.lda (.imm 0) ≠ .rti ∧
      ∃ t, exec (.lda (.imm 0)) start = .next t ∧ resultByte (.lda (.imm 0)) start t = some 0) ∧
    (∃ t, exec (.cmp (.imm 0x01)) start = .next t ∧ resultByte (.cmp (.imm 0x01)) start t = some 0xFF) ∧
    (∃ t, exec (.asl .acc) start = .next t ∧ resultByte (.asl .acc) start t = some 0) ∧
    (∃ t, exec (.asl (.zp 0)) start = .next t ∧ resultByte (.asl (.zp 0)) start t = some 0xFE) ∧
    (∃ t, exec (.dcp (.zp 0)) start = .next t ∧ resultByte (.dcp (.zp 0)) start t = some 0x02) :=
  ⟨⟨rfl, fun _ => nofun, by decide, by decide, _, rfl, rfl⟩, ⟨_, rfl, rfl⟩, ⟨_, rfl, rfl⟩, ⟨_, rfl, rfl⟩, _, rfl, rfl⟩

theorem witness_CanonicalMemoriesAreEqualData :
    let m : Memory := (Memory.write [] 0 0x12).write 0xFFFF 0x34
    let n : Memory := ((Memory.write [] 0xFFFF 0x34).write 5 0x56).write 0 0x12 |>.write 5 0xFF
    m.wf = true ∧ n.wf = true ∧ ∀ a, m.read a = n.read a := by
  refine ⟨rfl, rfl, fun a => ?_⟩
  rfl

/-- Plain memory, and a window of each other kind. -/
theorem witness_BusReadReturnsTheLastWrite :
    start.mem.wf = true ∧ start.plain 0x0000 ∧ start.plain 0xFFFF ∧
    ¬ ({ start with busMap := [⟨0x8000, 0xFFFF, .rom⟩] } : State).plain 0xFFFF ∧
    ({ start with busMap := [⟨0x8000, 0xFFFF, .rom⟩] } : State).plain 0x7FFF ∧
    ¬ ({ start with busMap := [⟨0x2000, 0x3FFF, .device⟩] } : State).plain 0x2000 := by decide

theorem witness_LoadResults :
    (Instr.lda (.imm 0)).WellFormed ∧ (Instr.lda (.izy 0xFF)).WellFormed ∧ (Instr.ldx (.zpy 0xFF)).WellFormed ∧
    (Instr.ldy (.abx 0xFFFF)).WellFormed ∧ (Instr.lax (.izx 0xFF)).WellFormed := by decide

theorem witness_StoreResults :
    (Instr.sta (.aby 0xFFFF)).WellFormed ∧ (Instr.stx (.zpy 0xFF)).WellFormed ∧ (Instr.sty (.zpx 0xFF)).WellFormed ∧
    (Instr.sax (.izx 0xFF)).WellFormed := by decide

theorem witness_LogicAndBitTestResults :
    (Instr.ora (.imm 0)).WellFormed ∧ (Instr.and (.abx 0xFFFF)).WellFormed ∧ (Instr.eor (.izx 0xFF)).WellFormed ∧
    (Instr.bit (.abs 0xFFFF)).WellFormed := by decide

theorem witness_AddAndSubtractResults :
    (Instr.adc (.imm 0xFF)).WellFormed ∧ (Instr.sbc (.izy 0xFF)).WellFormed ∧ (Instr.sbcU 0x00).WellFormed ∧
    (∀ o, Instr.sbc (.izy 0xFF) ≠ .adc o) ∧ (∀ o, Instr.sbcU 0x00 ≠ .adc o) :=
  ⟨rfl, rfl, rfl, fun _ => nofun, fun _ => nofun⟩

theorem witness_CompareResults :
    (Instr.cmp (.imm 0)).WellFormed ∧ (Instr.cpx (.zp 0xFF)).WellFormed ∧ (Instr.cpy (.abs 0xFFFF)).WellFormed := by
  decide

/-- Both clauses of each: Accumulator mode and a memory mode. -/
theorem witness_ShiftAndRotateResults :
    (Instr.asl .acc).WellFormed ∧ (Instr.asl (.zp 0)).WellFormed ∧ (Instr.lsr .acc).WellFormed ∧
    (Instr.lsr (.abs 0xFFFF)).WellFormed ∧ (Instr.rol .acc).WellFormed ∧ (Instr.rol (.zpx 0xFF)).WellFormed ∧
    (Instr.ror .acc).WellFormed ∧ (Instr.ror (.abx 0xFFFF)).WellFormed := by decide

theorem witness_MemoryIncrementResults :
    (Instr.inc (.zp 0xFF)).WellFormed ∧ (Instr.dec (.abx 0xFFFF)).WellFormed := by decide

/-- Each branch on both sides of its condition: the start state has `N`, `V`, `C`, `Z` clear. -/
theorem witness_BranchResults :
    let set : State := { start with flagN := true, flagV := true, flagC := true, flagZ := true }
    [!start.flagN, set.flagN, !start.flagV, set.flagV, !start.flagC, set.flagC, !start.flagZ, set.flagZ] =
      List.replicate 8 true ∧
    [!set.flagN, start.flagN, !set.flagV, start.flagV, !set.flagC, start.flagC, !set.flagZ, start.flagZ] =
      List.replicate 8 false := by decide

theorem witness_JumpResults :
    (0x3000 : Word).toNat = (0x30FF : Word).toNat / 256 * 256 + ((0x30FF : Word).toNat + 1) % 256 ∧
    (0x3011 : Word).toNat = (0x3010 : Word).toNat / 256 * 256 + ((0x3010 : Word).toNat + 1) % 256 := by decide

/-- With `SP` at 0x00, where the pushes wrap. -/
theorem witness_JsrThenRtsReturns :
    ({ start with sp := 0x00 } : State).PlainStack ∧ ({ start with sp := 0x00 } : State).mem.wf = true :=
  ⟨fun _ => rfl, rfl⟩

theorem witness_PushThenPullRestores :
    ({ start with sp := 0x00 } : State).PlainStack ∧ ({ start with sp := 0x00 } : State).mem.wf = true :=
  ⟨fun _ => rfl, rfl⟩

/-- With `SP` at 0x01, where the third push wraps. -/
theorem witness_EntryThenRtiResumes :
    ({ start with sp := 0x01 } : State).PlainStack ∧ ({ start with sp := 0x01 } : State).mem.wf = true :=
  ⟨fun _ => rfl, rfl⟩

/-- Each instruction, and for each clause a result byte that meets its equation for the operand byte 0xFF read
with `C` set. -/
theorem witness_UndocumentedModifyResults :
    ((Instr.slo (.zp 0)).WellFormed ∧ (Instr.rla (.izy 0xFF)).WellFormed ∧ (Instr.sre (.abs 0xFFFF)).WellFormed ∧
      (Instr.rra (.izx 0xFF)).WellFormed ∧ (Instr.dcp (.aby 0xFFFF)).WellFormed ∧ (Instr.isc (.zpx 0xFF)).WellFormed) ∧
    (let s : State := { start with flagC := true }
     let m : Byte := s.peek 0x0000
     (0xFE : Byte).toNat = m.toNat * 2 % 256 ∧ (0xFF : Byte).toNat = m.toNat * 2 % 256 + s.flagC.toNat ∧
        (0x7F : Byte).toNat = m.toNat / 2 ∧ (0xFF : Byte).toNat = m.toNat / 2 + 128 * s.flagC.toNat ∧
        (0xFE : Byte) = m - 1 ∧ (0x00 : Byte) = m + 1) := by decide

theorem witness_UndocumentedReadResults :
    ((0x0B : Byte) = 0x0B ∨ (0x0B : Byte) = 0x2B) ∧ ((0x2B : Byte) = 0x0B ∨ (0x2B : Byte) = 0x2B) := by decide

/-- The two equations define the bytes `t` and `u`, whatever `MAGIC` is. The last clauses apply with `A` 0xFF and with
operand 0. -/
theorem witness_UnstableImmediateResults :
    (∃ t u : Byte, t = (start.a ||| Config.magic) &&& 0x5A ∧ u = (start.a ||| Config.magic) &&& start.x &&& 0x5A) ∧
    (∃ t u : Byte, t = (start.a ||| Config.magic) &&& 0 ∧ u = (start.a ||| Config.magic) &&& start.x &&& 0) ∧
    ({ start with a := 0xFF } : State).a = 0xFF := ⟨⟨_, _, rfl, rfl⟩, ⟨_, _, rfl, rfl⟩, rfl⟩

theorem witness_UndocumentedNopResults :
    (Instr.nopU 0x1A .imp).WellFormed ∧ (Instr.nopU 0xE2 (.imm 0)).WellFormed ∧
    (Instr.nopU 0x04 (.zp 0xFF)).WellFormed ∧ (Instr.nopU 0x0C (.abs 0xFFFF)).WellFormed ∧
    (Instr.nopU 0xFC (.abx 0xFFFF)).WellFormed ∧ (0xEA : Byte) ∉ nopOpcodes .imp := by decide

/-- Each alternative of the hypothesis, by its instruction, value and new `SP`. -/
theorem witness_HighByteStoreResults :
    (Instr.ahx (.aby 0x12FF)).WellFormed ∧ (Instr.ahx (.izy 0xFF)).WellFormed ∧ (Instr.shy 0xFFFF).WellFormed ∧
    (Instr.shx 0x0000).WellFormed ∧ (Instr.tas 0x20FF).WellFormed ∧
    highStoreValue start (.ahx (.aby 0x12FF)) = some (start.a &&& start.x) ∧
    highStoreValue start (.ahx (.izy 0xFF)) = some (start.a &&& start.x) ∧
    highStoreValue start (.shy 0xFFFF) = some start.y ∧ highStoreValue start (.shx 0x0000) = some start.x ∧
    highStoreValue start (.tas 0x20FF) = some (start.a &&& start.x) := by decide

theorem witness_FlagsChangeOnlyWhereNamed :
    (∃ t, exec (.sta (.zp 0)) start = .next t) ∧
    writesC (.sta (.zp 0)) = false ∧ writesZN (.sta (.zp 0)) = false ∧ writesI (.sta (.zp 0)) = false ∧
    writesD (.sta (.zp 0)) = false ∧ writesV (.sta (.zp 0)) = false := ⟨⟨_, rfl⟩, by decide⟩

theorem witness_RegistersChangeOnlyWhereNamed :
    (∃ t, exec .clc start = .next t) ∧
    writesA .clc = false ∧ writesX .clc = false ∧ writesY .clc = false ∧ writesSP .clc = false ∧
    transfersControl .clc = false := ⟨⟨_, rfl⟩, by decide⟩

theorem witness_MemoryChangesOnlyForStores :
    (∃ t, exec (.asl .acc) start = .next t) ∧ writesMem (.asl .acc) = false ∧
    (∀ op, Instr.asl .acc ≠ .invalid op) := ⟨⟨_, rfl⟩, rfl, fun _ => nofun⟩

/-- Each clause: a store, a high-byte store that crosses a page, `PHA`, `JSR` and `BRK` with `SP` at 0x00, each with
an address outside the stored bytes and next to one. -/
theorem witness_StoredBytesAreTheOnlyChange :
    start.mem.wf = true ∧
    ((∃ t, exec (.sta (.zp 0x10)) start = .next t) ∧
      ∃ s1, start.addressOf (Instr.sta (.zp 0x10)).operand = some (0x0010, s1) ∧ 0x11 ≠ (0x0010 : Word).toNat) ∧
    (let s : State := { start with x := 0x80, y := 0x0F }
     (∃ t, exec (.shy 0x40C0) s = .next t) ∧ highStoreValue s (.shy 0x40C0) = some 0x0F ∧
        s.highStoreAddress (Instr.shy 0x40C0).operand 0x0F = some 0x0140 ∧ 0x4140 ≠ (0x0140 : Word).toNat) ∧
    (let s : State := { start with sp := 0x00 }
     (∃ t, exec .pha s = .next t) ∧ (∃ t, exec (.jsr 0x9000) s = .next t) ∧ (∃ t, exec .brk s = .next t) ∧
        0x0101 ≠ (stackAddr s.sp).toNat ∧ 0x01FD ≠ (stackAddr (s.sp - 1)).toNat ∧
        0x01FD ≠ (stackAddr (s.sp - 2)).toNat) :=
  ⟨rfl, ⟨⟨_, rfl⟩, _, rfl, by decide⟩, ⟨⟨_, rfl⟩, rfl, rfl, by decide⟩, ⟨_, rfl⟩, ⟨_, rfl⟩, ⟨_, rfl⟩, by decide,
    by decide, by decide⟩

/-- An instruction that leaves `D` and one that writes it. -/
theorem witness_DecimalFlagIsInert :
    (Instr.adc (.imm 0x01) ≠ .php ∧ Instr.adc (.imm 0x01) ≠ .brk ∧ ∃ t, exec (.adc (.imm 0x01)) start = .next t) ∧
    (Instr.plp ≠ .php ∧ Instr.plp ≠ .brk ∧ ∃ t, exec .plp start = .next t) :=
  ⟨⟨by decide, by decide, _, rfl⟩, by decide, by decide, _, rfl⟩

theorem witness_HiddenStateIsNotRead :
    (∃ t, exec .nop start = .next t) ∧ (∀ op, Instr.nop ≠ .invalid op) := ⟨⟨_, rfl⟩, fun _ => nofun⟩

end Sys2Proof.Tests
end

section
/-! The external events (R40, R42): what `Reset` makes of a latched trigger, one equation for each event presented
before the first `Reset`, and how a list of events unfolds. -/

namespace Sys2Proof.Machine

/-- R330: `Reset` sets the NMI latch itself, and the vector reads do not look at it. -/
@[simp] theorem State.resetEvent_triggerNmi (s : State) : s.triggerNmi.resetEvent = s.resetEvent := rfl

/-- R330: as for the NMI latch. -/
@[simp] theorem State.resetEvent_triggerIrq (s : State) : s.triggerIrq.resetEvent = s.resetEvent := rfl

namespace Block

@[simp] theorem present_reset_beforeReset (s : State) :
    (beforeReset s).present .reset = .next (.running s.resetEvent) := rfl

@[simp] theorem present_triggerNmi_beforeReset (s : State) :
    (beforeReset s).present .triggerNmi = .next (.beforeReset s.triggerNmi) := rfl

@[simp] theorem present_triggerIrq_beforeReset (s : State) :
    (beforeReset s).present .triggerIrq = .next (.beforeReset s.triggerIrq) := rfl

/-- R42. -/
@[simp] theorem present_tick_beforeReset (s : State) :
    (beforeReset s).present .tick = .refused .tickBeforeReset := rfl

@[simp] theorem presentAll_nil (b : Block) : b.presentAll [] = .next b := rfl

/-- An event that answers with a block hands the rest of the events to it. -/
theorem presentAll_cons_of_next {b b1 : Block} {e : Event} (h : b.present e = .next b1) (rest : List Event) :
    b.presentAll (e :: rest) = b1.presentAll rest := by
  simp only [presentAll, h]

/-- `Reset` as the last event before the block runs. -/
theorem presentAll_reset_beforeReset (s : State) :
    (beforeReset s).presentAll [.reset] = .next (.running s.resetEvent) := by
  rw [presentAll_cons_of_next (present_reset_beforeReset s), presentAll_nil]

end Block

/-- Settles O2: the `Tick` by its equation; a trigger is handed on to the `Reset`, which overwrites the latch. -/
theorem tickBeforeFirstResetIsRefused : Obligations.TickBeforeFirstResetIsRefused := by
  intro s
  refine ⟨Block.present_tick_beforeReset s, ?nmi, ?irq, Block.present_reset_beforeReset s⟩
  case nmi =>
    rw [Block.presentAll_cons_of_next (Block.present_triggerNmi_beforeReset s),
      Block.presentAll_reset_beforeReset, State.resetEvent_triggerNmi]
  case irq =>
    rw [Block.presentAll_cons_of_next (Block.present_triggerIrq_beforeReset s),
      Block.presentAll_reset_beforeReset, State.resetEvent_triggerIrq]

end Sys2Proof.Machine
end

section
/-! The stack (R68, decision D13): where the byte a pull reads lies, the wrap of `SP` included. -/

namespace Sys2Proof.Machine

/-- R68: the address a pull reads; past 0xFF the pointer wraps, so the address stays in the stack page. -/
theorem stackAddr_succ_toNat (sp : Byte) : (stackAddr (sp + 1)).toNat = 0x0100 + (sp.toNat + 1) % 256 := by
  rw [stackAddr_toNat, BitVec.toNat_add]
  rfl

/-- Settles O30: push uses the stack address of `SP` as it is, pull that of `SP` already incremented. -/
theorem stackPrimitives : Obligations.StackPrimitives := by
  intro s v
  refine ⟨stackAddr s.sp, stackAddr (s.sp + 1), ?pushAddress, ?pullAddress, ?push, ?pull⟩
  case pushAddress => exact stackAddr_toNat s.sp
  case pullAddress => exact stackAddr_succ_toNat s.sp
  case push => exact s.push_eq v
  case pull => exact s.pull_eq

end Sys2Proof.Machine
end

section
/-! Ticks that run no instruction (R121, R122, R129): how a run unfolds, Idle ticks one after the other, and what
`Reset` does to the latches. -/

namespace Sys2Proof.Machine

/-- A step that answers with a state hands the other steps of the run to it. -/
theorem run_succ_of_next {M : Host.Core} {s t : M.State} (h : M.step s = .next t) (n : Nat) :
    M.run (n + 1) s = M.run n t := by
  simp only [Host.Core.run, h]

/-- A run never leaves a state that steps to itself. -/
theorem run_of_step_self {M : Host.Core} {s : M.State} (h : M.step s = .next s) (n : Nat) : M.run n s = .next s := by
  induction n with
  | zero => rfl
  | succ n ih => rw [run_succ_of_next h, ih]

namespace State

theorem idleTick_eq (s : State) : s.idleTick = { s with cyclesRemaining := s.cyclesRemaining - 1 } := rfl

@[simp] theorem idleTick_setCycles_succ (n : Nat) (s : State) : (s.setCycles (n + 1)).idleTick = s.setCycles n := rfl

@[simp] theorem setCycles_self (s : State) : s.setCycles s.cyclesRemaining = s := rfl

theorem triggerNmi_eq (s : State) : s.triggerNmi = { s with nmiPending := true } := rfl

theorem triggerIrq_eq (s : State) : s.triggerIrq = { s with irqPending := true } := rfl

@[simp] theorem resetEvent_fault (s : State) : s.resetEvent.fault = none := rfl

@[simp] theorem resetEvent_nmiPending (s : State) : s.resetEvent.nmiPending = false := rfl

@[simp] theorem resetEvent_irqPending (s : State) : s.resetEvent.irqPending = false := rfl

end State

/-- R122: `n` Idle ticks take the counter from `n` to 0. -/
theorem run_setCycles {s : State} (running : s.fault = none) (n : Nat) :
    core.run n (s.setCycles n) = .next (s.setCycles 0) := by
  induction n with
  | zero => rfl
  | succ n ih =>
    have tick : step (s.setCycles (n + 1)) = .next (s.setCycles n) := by
      rw [step_idle (s := s.setCycles (n + 1)) running n.succ_pos, State.idleTick_setCycles_succ]
    exact (run_succ_of_next (M := core) tick n).trans ih

/-- Settles O4: one tick by `step_idle`; the drain by induction on the counter. -/
theorem idleTicksDrainToDispatch : Obligations.IdleTicksDrainToDispatch := by
  intro s running
  refine ⟨?tick, ?drain⟩
  case tick =>
    intro busy
    rw [step_idle running busy, State.idleTick_eq]
  case drain => exact run_setCycles running s.cyclesRemaining

/-- Settles O5: a faulted state steps to itself, so it is kept for any number of ticks. -/
theorem faultIsStickyUntilReset : Obligations.FaultIsStickyUntilReset := by
  intro s faulted
  refine ⟨?ticks, s.triggerNmi_eq, s.triggerIrq_eq, s.resetEvent_fault, s.resetEvent_nmiPending,
    s.resetEvent_irqPending⟩
  case ticks => exact run_of_step_self (M := core) (step_halted faulted)

end Sys2Proof.Machine
end

section
/-! The `INVALID` bytes (R97, R128, R286): their row of the opcode table, their form, what the fetch makes of one and
what the sentinel does. -/

namespace Sys2Proof.Machine

/-- R95, R97: the opcode table marks each of the twelve bytes as `INVALID`. -/
theorem opcodeRow_shape_invalid : ∀ op ∈ invalidOpcodes, (opcodeRow op).shape = .invalid := by
  simp only [invalidOpcodes, List.forall_mem_cons]
  exact ⟨rfl, rfl, rfl, rfl, rfl, rfl, rfl, rfl, rfl, rfl, rfl, rfl, nofun⟩

/-- R286: the sentinel is a row of the table for the twelve bytes, with no cycles charged. -/
theorem form_invalid {op : Byte} (h : op ∈ invalidOpcodes) : (Instr.invalid op).form = some ⟨op, 0, .never⟩ :=
  if_pos h

/-- R128, R286: the sentinel raises the fault and does nothing else. -/
theorem exec_invalid {op : Byte} (h : op ∈ invalidOpcodes) (s : State) :
    exec (.invalid op) s = .next (s.raiseUnimplemented op) := by
  simp only [exec, execInvalid, form_invalid h]

/-- R128: at an `INVALID` byte the fetch reads that byte alone and leaves `PC` where it is. -/
theorem fetch_invalid {s : State} (h : s.peek s.pc ∈ invalidOpcodes) :
    fetch s = (.invalid (s.peek s.pc), (s.busRead s.pc).2) := by
  simp only [fetch, State.busRead_eq, opcodeRow_shape_invalid _ h]

/-- R128: an instruction step at an `INVALID` byte raises the fault after the one read. -/
theorem step_invalid {s : State} (at_ : s.AtInstruction) (h : s.peek s.pc ∈ invalidOpcodes) :
    step s = .next ((s.busRead s.pc).2.raiseUnimplemented (s.peek s.pc)) := by
  rw [step_instruction at_, fetch_invalid h, exec_invalid h]

theorem State.raiseUnimplemented_eq (op : Byte) (s : State) :
    s.raiseUnimplemented op = { s with fault := some ⟨.unimplementedOpcode, op, s.pc⟩ } := rfl

/-- Settles O8: the fetch answers the sentinel after its one read, and the sentinel writes the fault latch alone. -/
theorem invalidOpcodeSetsTheFaultLatch : Obligations.InvalidOpcodeSetsTheFaultLatch := by
  refine ⟨?sentinel, ?tick, rfl, rfl⟩
  case sentinel =>
    intro s op h
    rw [exec_invalid h, State.raiseUnimplemented_eq]
  case tick =>
    intro s at_ h
    rw [step_invalid at_ h, State.raiseUnimplemented_eq, State.busRead_eq]

end Sys2Proof.Machine
end

section
/-! Rows of the opcode table by the shape of their execution: an instruction whose operand has an address, run as the
read class and as the store class (R124, R126, R153), and an instruction of two cycles without operand. -/

namespace Sys2Proof.Machine

/-- The term is a row of the opcode table, and its operand form has an address (R140). -/
structure AddressedRow (i : Instr) : Prop where
  form : ∃ f, i.form = some f
  ne_imp : i.operand ≠ .imp
  ne_acc : i.operand ≠ .acc

/-- A row of a mnemonic that has neither an Implied nor an Accumulator row. -/
theorem AddressedRow.of_wellFormed {make : Operand → Instr} {o : Operand} (operand : (make o).operand = o)
    (imp : (make .imp).wellFormed = false) (acc : (make .acc).wellFormed = false)
    (agrees : Laws.FormMatches.Statement (make o)) (wf : (make o).WellFormed) : AddressedRow (make o) where
  form := Option.isSome_iff_exists.mp (agrees.1 ▸ wf)
  ne_imp := by
    rw [operand]
    rintro rfl
    exact Bool.eq_false_iff.mp imp wf
  ne_acc := by
    rw [operand]
    rintro rfl
    exact Bool.eq_false_iff.mp acc wf

/-- The cycles charged without a branch are those of `cyclesAfter`. -/
theorem charge_eq_cyclesAfter {i : Instr} {f : Form} (h : i.form = some f) (s t : State) :
    t.charge f (resolve i.operand s).1.crossed 0 = { t with cyclesRemaining := cyclesAfter i s } := by
  have penalty : (f.penalty == .cross && (resolve i.operand s).1.crossed).toNat =
      if f.penalty = .cross ∧ (resolve i.operand s).1.crossed = true then 1 else 0 := by
    simp only [Bool.toNat, Bool.cond_eq_ite, Bool.and_eq_true, beq_iff_eq]
  simp only [charge_eq, cyclesAfter, h, penalty, Nat.add_zero]

/-- R124, R153: a row of the read class reads its operand byte and answers its effect, with the cycles charged. -/
theorem AddressedRow.runRead_answers {i : Instr} (row : AddressedRow i) (effect : Byte → State → State) (s : State) :
    ∃ m tr, s.Reads i.operand m tr ∧
      runRead i effect s =
        .next { effect m { s with trace := tr } with cyclesRemaining := cyclesAfter i s } := by
  obtain ⟨f, form⟩ := row.form
  obtain ⟨ea, m, tr, hea, read, reads⟩ := reads row.ne_imp row.ne_acc s
  refine ⟨m, tr, reads, ?_⟩
  rw [runRead_eq form hea, read, charge_eq_cyclesAfter form]

/-- R124: a row of the store class makes one write, at the address its operand resolves to, and no read there. -/
theorem AddressedRow.runStore_answers {i : Instr} (row : AddressedRow i) (value : State → Byte) (s : State) :
    ∃ ea tr, s.ResolvesTo i.operand ea tr ∧
      runStore i value s =
        .next
          { s with
            mem := s.stored ea (value { s with trace := tr }), cyclesRemaining := cyclesAfter i s
            trace := .write ea (value { s with trace := tr }) :: tr } := by
  obtain ⟨f, form⟩ := row.form
  obtain ⟨ea, tr, hea, resolved, resolves⟩ := resolvesTo row.ne_imp row.ne_acc s
  refine ⟨ea, tr, resolves, ?_⟩
  rw [runStore_eq form hea, resolved, charge_eq_cyclesAfter form, State.busWrite_eq]
  rfl

/-- R126: an instruction without operand and of two base cycles has one cycle left after the Dispatch tick. -/
theorem runImplied_twoCycles {i : Instr} {opcode : Byte} (h : i.form = some ⟨opcode, 2, .never⟩)
    (effect : State → State) (s : State) :
    runImplied i effect s = .next { effect s with cyclesRemaining := 1 } :=
  runImplied_eq h effect s

/-- An instruction without operand bytes is its opcode byte. -/
theorem encode_implied {i : Instr} {opcode : Byte} {cycles : Nat} {penalty : Penalty}
    (h : i.form = some ⟨opcode, cycles, penalty⟩) (operand : i.operand = .imp) : encode i = [opcode] := by
  simp only [encode, h, operand, Operand.bytes]

end Sys2Proof.Machine
end

section
/-! Loads, stores and transfers (42_load_store_transfer.md; `LAX` and `SAX` of 47_undocumented.md): the shape and the
effect of each, and that each row of a load or store has an address. -/

namespace Sys2Proof.Machine

/-! ## Loads -/

theorem exec_lda (o : Operand) (s : State) :
    exec (.lda o) s = runRead (.lda o) (fun m s1 => (s1.setA m).setZN m) s := rfl

theorem exec_ldx (o : Operand) (s : State) :
    exec (.ldx o) s = runRead (.ldx o) (fun m s1 => (s1.setX m).setZN m) s := rfl

theorem exec_ldy (o : Operand) (s : State) :
    exec (.ldy o) s = runRead (.ldy o) (fun m s1 => (s1.setY m).setZN m) s := rfl

theorem exec_lax (o : Operand) (s : State) :
    exec (.lax o) s = runRead (.lax o) (fun m s1 => ((s1.setA m).setX m).setZN m) s := rfl

theorem addressedRow_lda {o : Operand} (wf : (Instr.lda o).WellFormed) : AddressedRow (.lda o) :=
  .of_wellFormed rfl rfl rfl (Laws.FormMatches.lda o) wf

theorem addressedRow_ldx {o : Operand} (wf : (Instr.ldx o).WellFormed) : AddressedRow (.ldx o) :=
  .of_wellFormed rfl rfl rfl (Laws.FormMatches.ldx o) wf

theorem addressedRow_ldy {o : Operand} (wf : (Instr.ldy o).WellFormed) : AddressedRow (.ldy o) :=
  .of_wellFormed rfl rfl rfl (Laws.FormMatches.ldy o) wf

theorem addressedRow_lax {o : Operand} (wf : (Instr.lax o).WellFormed) : AddressedRow (.lax o) :=
  .of_wellFormed rfl rfl rfl (Laws.FormMatches.lax o) wf

/-- Settles O31: the forms mode by mode; each load is a row of the read class, whose effect sets the register and then
`Z` and `N`. -/
theorem loadResults : Obligations.LoadResults := by
  refine ⟨?ldaForms, ?ldxForms, ?ldyForms, ?laxForms, fun o s => ⟨?lda, ?ldx, ?ldy, ?lax⟩⟩
  case ldaForms | ldxForms | ldyForms | laxForms =>
    intro o
    cases o <;> rfl
  case lda =>
    intro wf
    rw [exec_lda]
    exact (addressedRow_lda wf).runRead_answers _ s
  case ldx =>
    intro wf
    rw [exec_ldx]
    exact (addressedRow_ldx wf).runRead_answers _ s
  case ldy =>
    intro wf
    rw [exec_ldy]
    exact (addressedRow_ldy wf).runRead_answers _ s
  case lax =>
    intro wf
    rw [exec_lax]
    exact (addressedRow_lax wf).runRead_answers _ s

/-! ## Stores -/

theorem exec_sta (o : Operand) (s : State) : exec (.sta o) s = runStore (.sta o) State.a s := rfl

theorem exec_stx (o : Operand) (s : State) : exec (.stx o) s = runStore (.stx o) State.x s := rfl

theorem exec_sty (o : Operand) (s : State) : exec (.sty o) s = runStore (.sty o) State.y s := rfl

theorem exec_sax (o : Operand) (s : State) :
    exec (.sax o) s = runStore (.sax o) (fun s1 => s1.a &&& s1.x) s := rfl

theorem addressedRow_sta {o : Operand} (wf : (Instr.sta o).WellFormed) : AddressedRow (.sta o) :=
  .of_wellFormed rfl rfl rfl (Laws.FormMatches.sta o) wf

theorem addressedRow_stx {o : Operand} (wf : (Instr.stx o).WellFormed) : AddressedRow (.stx o) :=
  .of_wellFormed rfl rfl rfl (Laws.FormMatches.stx o) wf

theorem addressedRow_sty {o : Operand} (wf : (Instr.sty o).WellFormed) : AddressedRow (.sty o) :=
  .of_wellFormed rfl rfl rfl (Laws.FormMatches.sty o) wf

theorem addressedRow_sax {o : Operand} (wf : (Instr.sax o).WellFormed) : AddressedRow (.sax o) :=
  .of_wellFormed rfl rfl rfl (Laws.FormMatches.sax o) wf

/-- Settles O32: the forms mode by mode; each store is a row of the store class, and the resolver leaves the registers
that make the stored byte. -/
theorem storeResults : Obligations.StoreResults := by
  refine ⟨?staForms, ?stxForms, ?styForms, ?saxForms, ?stores⟩
  case staForms | stxForms | styForms | saxForms =>
    intro o
    cases o <;> rfl
  case stores =>
    rintro i o s v wf (⟨rfl, rfl⟩ | ⟨rfl, rfl⟩ | ⟨rfl, rfl⟩ | ⟨rfl, rfl⟩)
    · rw [exec_sta]
      exact (addressedRow_sta wf).runStore_answers _ s
    · rw [exec_stx]
      exact (addressedRow_stx wf).runStore_answers _ s
    · rw [exec_sty]
      exact (addressedRow_sty wf).runStore_answers _ s
    · rw [exec_sax]
      exact (addressedRow_sax wf).runStore_answers _ s

/-! ## Transfers -/

theorem exec_tax (s : State) : exec .tax s = runImplied .tax (fun s1 => (s1.setX s1.a).setZN s1.a) s := rfl

theorem exec_tay (s : State) : exec .tay s = runImplied .tay (fun s1 => (s1.setY s1.a).setZN s1.a) s := rfl

theorem exec_txa (s : State) : exec .txa s = runImplied .txa (fun s1 => (s1.setA s1.x).setZN s1.x) s := rfl

theorem exec_tya (s : State) : exec .tya s = runImplied .tya (fun s1 => (s1.setA s1.y).setZN s1.y) s := rfl

theorem exec_tsx (s : State) : exec .tsx s = runImplied .tsx (fun s1 => (s1.setX s1.sp).setZN s1.sp) s := rfl

theorem exec_txs (s : State) : exec .txs s = runImplied .txs (fun s1 => s1.setSP s1.x) s := rfl

/-- Settles O33: each transfer is an instruction without operand, of two cycles, and its effect a copy, which `SetZN`
follows in all but `TXS`. -/
theorem transferResults : Obligations.TransferResults := by
  intro s
  refine ⟨encode_implied rfl rfl, encode_implied rfl rfl, encode_implied rfl rfl, encode_implied rfl rfl,
    encode_implied rfl rfl, encode_implied rfl rfl, ?tax, ?tay, ?txa, ?tya, ?tsx, ?txs⟩
  case tax => rw [exec_tax, runImplied_twoCycles rfl]; rfl
  case tay => rw [exec_tay, runImplied_twoCycles rfl]; rfl
  case txa => rw [exec_txa, runImplied_twoCycles rfl]; rfl
  case tya => rw [exec_tya, runImplied_twoCycles rfl]; rfl
  case tsx => rw [exec_tsx, runImplied_twoCycles rfl]; rfl
  case txs => rw [exec_txs, runImplied_twoCycles rfl]; rfl

end Sys2Proof.Machine
end

section
/-! The arithmetic of the ALU (R180 to R182, R187): bit 7 of a byte, the adder as integer addition, the adder on a
complemented byte as subtraction with borrow, and the compare as an unsigned comparison. -/

namespace Sys2Proof.Machine

/-! ## Bytes -/

/-- R180: bit 7 as a number. -/
theorem getLsbD_seven_iff (v : Byte) : v.getLsbD 7 = true ↔ v.toNat / 128 = 1 := by
  rw [BitVec.getLsbD, Nat.testBit_eq_decide_div_mod_eq, decide_eq_true_iff]
  have := v.isLt
  omega

theorem getLsbD_seven_eq_iff (v w : Byte) : v.getLsbD 7 = w.getLsbD 7 ↔ v.toNat / 128 = w.toNat / 128 := by
  rw [Bool.eq_iff_iff, getLsbD_seven_iff, getLsbD_seven_iff]
  have := v.isLt
  have := w.isLt
  omega

/-- R5: a byte read as a signed number. -/
theorem toInt_byte (v : Byte) : v.toInt = v.toNat - 256 * (v.toNat / 128 : Nat) := by
  rw [BitVec.toInt_eq_toNat_cond]
  split <;> omega

/-- R181: the mask of the sign-bit test leaves bit 7. -/
theorem and_0x80_ne_zero_iff (v : Byte) : v &&& 0x80 ≠ 0 ↔ v.getLsbD 7 = true := by
  have mask : v &&& 0x80 = if v.getLsbD 7 then 0x80 else 0 := BitVec.and_twoPow v 7
  rw [mask]
  split <;> simp_all

/-- R187: the complement that `SBC` hands to the adder. -/
theorem xor_0xFF (m : Byte) : m ^^^ 0xFF = 255 - m :=
  (BitVec.xor_allOnes (x := m)).trans (BitVec.allOnes_sub_eq_not m).symm

theorem complement_toNat (m : Byte) : (255 - m).toNat = 255 - m.toNat := by
  bv_omega

theorem complement_toInt (m : Byte) : (255 - m).toInt = -1 - m.toInt := by
  rw [BitVec.toInt_eq_toNat_cond, BitVec.toInt_eq_toNat_cond, complement_toNat]
  have := m.isLt
  split <;> split <;> omega

/-! ## The adder (R181) -/

theorem adderResult_toNat (a m : Byte) (c : Bool) :
    (adderResult a m c).toNat = (a.toNat + m.toNat + c.toNat) % 256 := BitVec.toNat_ofNat ..

theorem adderCarry_iff (a m : Byte) (c : Bool) : adderCarry a m c = true ↔ a.toNat + m.toNat + c.toNat > 255 :=
  decide_eq_true_iff

theorem adderOverflow_iff_bits (a m : Byte) (c : Bool) :
    adderOverflow a m c = true ↔ (~~~(a ^^^ m) &&& (a ^^^ adderResult a m c) &&& 0x80) ≠ 0 := bne_iff_ne

/-- R181: the sign-bit test asks for operands of one sign and a result of the other. -/
theorem adderOverflow_iff_signs (a m : Byte) (c : Bool) :
    adderOverflow a m c = true ↔
      a.toNat / 128 = m.toNat / 128 ∧ a.toNat / 128 ≠ (adderResult a m c).toNat / 128 := by
  rw [adderOverflow_iff_bits, and_0x80_ne_zero_iff]
  simp [← getLsbD_seven_eq_iff]

/-- R181: the signs differ so exactly when the signed sum leaves -128 to 127. -/
theorem adderOverflow_iff (a m : Byte) (c : Bool) :
    adderOverflow a m c = true ↔
      a.toInt + m.toInt + (c.toNat : Int) < -128 ∨ a.toInt + m.toInt + (c.toNat : Int) > 127 := by
  rw [adderOverflow_iff_signs, adderResult_toNat, toInt_byte, toInt_byte]
  have := a.isLt
  have := m.isLt
  have := c.toNat_le
  omega

/-! ## The adder on a complemented byte (R187) -/

/-- `A - m - (1 - C)` modulo 256. -/
theorem adderResult_complement_toNat (a m : Byte) (c : Bool) :
    ((adderResult a (255 - m) c).toNat : Int) = ((a.toNat : Int) - m.toNat - (1 - c.toNat)) % 256 := by
  rw [adderResult_toNat, complement_toNat]
  have := m.isLt
  omega

/-- The carry means no borrow. -/
theorem adderCarry_complement_iff (a m : Byte) (c : Bool) :
    adderCarry a (255 - m) c = true ↔ m.toNat + (1 - c.toNat) ≤ a.toNat := by
  rw [adderCarry_iff, complement_toNat]
  have := m.isLt
  have := c.toNat_le
  omega

theorem adderOverflow_complement_iff (a m : Byte) (c : Bool) :
    adderOverflow a (255 - m) c = true ↔
      a.toInt - m.toInt - (1 - c.toNat : Int) < -128 ∨ a.toInt - m.toInt - (1 - c.toNat : Int) > 127 := by
  rw [adderOverflow_iff, complement_toInt]
  omega

/-- Settles O23: each component of the adder by its arithmetic. -/
theorem adderIsIntegerAddition : Obligations.AdderIsIntegerAddition := fun s m =>
  ⟨_, _, _, s.addWithCarry_eq m, adderResult_toNat .., adderCarry_iff .., adderOverflow_iff_bits ..,
    adderOverflow_iff ..⟩

/-! ## The compare (R182) -/

theorem State.compare_eq_unsigned (r m : Byte) (s : State) :
    s.compare r m = { s with flagC := m.toNat ≤ r.toNat, flagZ := r == m, flagN := (r - m).getLsbD 7 } := by
  have zero : (r - m == 0) = (r == m) := by rw [Bool.eq_iff_iff, beq_iff_eq, beq_iff_eq, sub_eq_zero]
  rw [State.compare_eq, zero]

/-- R182: bit 7 of the difference modulo 256. -/
theorem sub_getLsbD_seven_iff (r m : Byte) :
    (r - m).getLsbD 7 = true ↔ (r.toNat + 256 - m.toNat) % 256 ≥ 128 := by
  rw [getLsbD_seven_iff, BitVec.toNat_sub]
  have := m.isLt
  omega

/-- Settles O25: `Z` excludes equality from the unsigned comparison in `C`. -/
theorem compareIsUnsigned : Obligations.CompareIsUnsigned := by
  intro s r m
  refine ⟨_, _, _, s.compare_eq_unsigned r m, decide_eq_true_iff, beq_iff_eq, sub_getLsbD_seven_iff r m, ?greater⟩
  case greater =>
    rw [decide_eq_true_iff, beq_eq_false_iff_ne, ne_comm, ← BitVec.toNat_ne_iff_ne, lt_iff_le_and_ne]

end Sys2Proof.Machine
end

section
/-! Logic, arithmetic, compare and bit test (43_logic_arith_compare.md; `SBC #` 0xEB of 47_undocumented.md): the effect
of each on the operand byte, and that each row has an address. -/

namespace Sys2Proof.Machine

/-! ## Logic and bit test -/

theorem exec_ora (o : Operand) (s : State) :
    exec (.ora o) s = runRead (.ora o) (fun m s1 => (s1.setA (s1.a ||| m)).setZN (s1.a ||| m)) s := rfl

theorem exec_and (o : Operand) (s : State) :
    exec (.and o) s = runRead (.and o) (fun m s1 => (s1.setA (s1.a &&& m)).setZN (s1.a &&& m)) s := rfl

theorem exec_eor (o : Operand) (s : State) :
    exec (.eor o) s = runRead (.eor o) (fun m s1 => (s1.setA (s1.a ^^^ m)).setZN (s1.a ^^^ m)) s := rfl

theorem exec_bit (o : Operand) (s : State) : exec (.bit o) s = runRead (.bit o) State.bitTest s := rfl

theorem addressedRow_ora {o : Operand} (wf : (Instr.ora o).WellFormed) : AddressedRow (.ora o) :=
  .of_wellFormed rfl rfl rfl (Laws.FormMatches.ora o) wf

theorem addressedRow_and {o : Operand} (wf : (Instr.and o).WellFormed) : AddressedRow (.and o) :=
  .of_wellFormed rfl rfl rfl (Laws.FormMatches.and o) wf

theorem addressedRow_eor {o : Operand} (wf : (Instr.eor o).WellFormed) : AddressedRow (.eor o) :=
  .of_wellFormed rfl rfl rfl (Laws.FormMatches.eor o) wf

theorem addressedRow_bit {o : Operand} (wf : (Instr.bit o).WellFormed) : AddressedRow (.bit o) :=
  .of_wellFormed rfl rfl rfl (Laws.FormMatches.bit o) wf

/-- Settles O34: the forms mode by mode; each instruction is a row of the read class, and the resolver and the read
leave the `A` that is combined with the byte. -/
theorem logicAndBitTestResults : Obligations.LogicAndBitTestResults := by
  refine ⟨?oraForms, ?andForms, ?eorForms, ?bitForms, fun o s => ⟨?logic, ?bit⟩⟩
  case oraForms | andForms | eorForms | bitForms =>
    intro o
    cases o <;> rfl
  case logic =>
    rintro i f wf (⟨rfl, rfl⟩ | ⟨rfl, rfl⟩ | ⟨rfl, rfl⟩)
    · rw [exec_ora]
      exact (addressedRow_ora wf).runRead_answers _ s
    · rw [exec_and]
      exact (addressedRow_and wf).runRead_answers _ s
    · rw [exec_eor]
      exact (addressedRow_eor wf).runRead_answers _ s
  case bit =>
    intro wf
    rw [exec_bit]
    exact (addressedRow_bit wf).runRead_answers _ s

/-! ## Addition and subtraction -/

theorem exec_adc (o : Operand) (s : State) :
    exec (.adc o) s = runRead (.adc o) (fun m s1 => s1.addWithCarry m) s := rfl

theorem exec_sbc (o : Operand) (s : State) :
    exec (.sbc o) s = runRead (.sbc o) (fun m s1 => s1.addWithCarry (255 - m)) s := by
  simp only [← xor_0xFF]
  rfl

theorem exec_sbcU (d : Byte) (s : State) :
    exec (.sbcU d) s = runRead (.sbcU d) (fun m s1 => s1.addWithCarry (255 - m)) s := by
  simp only [← xor_0xFF]
  rfl

theorem addressedRow_adc {o : Operand} (wf : (Instr.adc o).WellFormed) : AddressedRow (.adc o) :=
  .of_wellFormed rfl rfl rfl (Laws.FormMatches.adc o) wf

theorem addressedRow_sbc {o : Operand} (wf : (Instr.sbc o).WellFormed) : AddressedRow (.sbc o) :=
  .of_wellFormed rfl rfl rfl (Laws.FormMatches.sbc o) wf

theorem addressedRow_sbcU (d : Byte) : AddressedRow (.sbcU d) := ⟨⟨_, rfl⟩, nofun, nofun⟩

/-- R186, R187: a row that runs the adder on `g` of its operand byte answers the sum, its carry, its overflow and the
flags of the sum, the rest of the state as it was. -/
theorem AddressedRow.runAdder_answers {i : Instr} (row : AddressedRow i) (g : Byte → Byte) (s : State) :
    ∃ m tr, s.Reads i.operand m tr ∧
      runRead i (fun m s1 => s1.addWithCarry (g m)) s =
        .next
          { s with
            a := adderResult s.a (g m) s.flagC, flagC := adderCarry s.a (g m) s.flagC
            flagV := adderOverflow s.a (g m) s.flagC, flagZ := adderResult s.a (g m) s.flagC == 0
            flagN := (adderResult s.a (g m) s.flagC).getLsbD 7, cyclesRemaining := cyclesAfter i s, trace := tr } :=
  row.runRead_answers _ s

/-- Settles O35: the forms mode by mode; `ADC` runs the adder on the byte, both `SBC` on its complement, and there the
adder subtracts. -/
theorem addAndSubtractResults : Obligations.AddAndSubtractResults := by
  refine ⟨?adcForms, ?sbcForms, fun d => rfl, ?results⟩
  case adcForms | sbcForms =>
    intro o
    cases o <;> rfl
  case results =>
    intro i s f wf which
    obtain ⟨row, run, complement⟩ : AddressedRow i ∧
        exec i s = runRead i (fun m s1 => s1.addWithCarry (f m)) s ∧ ((∀ o, i ≠ .adc o) → f = fun m => 255 - m) := by
      rcases which with ⟨⟨o, rfl⟩, rfl⟩ | ⟨⟨o, rfl⟩, rfl⟩ | ⟨⟨d, rfl⟩, rfl⟩
      · exact ⟨addressedRow_adc wf, exec_adc o s, fun notAdc => absurd rfl (notAdc o)⟩
      · exact ⟨addressedRow_sbc wf, exec_sbc o s, fun _ => rfl⟩
      · exact ⟨addressedRow_sbcU d, exec_sbcU d s, fun _ => rfl⟩
    obtain ⟨m, tr, reads, answers⟩ := row.runAdder_answers f s
    refine ⟨m, tr, _, _, _, reads, run.trans answers, adderResult_toNat .., adderCarry_iff .., adderOverflow_iff ..,
      fun notAdc => ?subtraction⟩
    obtain rfl := complement notAdc
    exact ⟨adderResult_complement_toNat .., adderCarry_complement_iff .., adderOverflow_complement_iff ..⟩

/-! ## Compares -/

theorem exec_cmp (o : Operand) (s : State) :
    exec (.cmp o) s = runRead (.cmp o) (fun m s1 => s1.compare s1.a m) s := rfl

theorem exec_cpx (o : Operand) (s : State) :
    exec (.cpx o) s = runRead (.cpx o) (fun m s1 => s1.compare s1.x m) s := rfl

theorem exec_cpy (o : Operand) (s : State) :
    exec (.cpy o) s = runRead (.cpy o) (fun m s1 => s1.compare s1.y m) s := rfl

theorem addressedRow_cmp {o : Operand} (wf : (Instr.cmp o).WellFormed) : AddressedRow (.cmp o) :=
  .of_wellFormed rfl rfl rfl (Laws.FormMatches.cmp o) wf

theorem addressedRow_cpx {o : Operand} (wf : (Instr.cpx o).WellFormed) : AddressedRow (.cpx o) :=
  .of_wellFormed rfl rfl rfl (Laws.FormMatches.cpx o) wf

theorem addressedRow_cpy {o : Operand} (wf : (Instr.cpy o).WellFormed) : AddressedRow (.cpy o) :=
  .of_wellFormed rfl rfl rfl (Laws.FormMatches.cpy o) wf

/-- Settles O36: the forms mode by mode; each compare is a row of the read class, with the unsigned comparison as its
effect. -/
theorem compareResults : Obligations.CompareResults := by
  refine ⟨?cmpForms, ?cpxForms, ?cpyForms, ?compares⟩
  case cmpForms | cpxForms | cpyForms =>
    intro o
    cases o <;> rfl
  case compares =>
    rintro i o s r wf (⟨rfl, rfl⟩ | ⟨rfl, rfl⟩ | ⟨rfl, rfl⟩)
    · simp only [exec_cmp, State.compare_eq_unsigned]
      exact (addressedRow_cmp wf).runRead_answers _ s
    · simp only [exec_cpx, State.compare_eq_unsigned]
      exact (addressedRow_cpx wf).runRead_answers _ s
    · simp only [exec_cpy, State.compare_eq_unsigned]
      exact (addressedRow_cpy wf).runRead_answers _ s

end Sys2Proof.Machine
end

section
/-! The shape and the effect of the instructions of the other files that write `Z` and `N` of a result byte
(44_shift_rotate_incdec.md, `PLA` of 46_stack_flag_system.md, 47_undocumented.md). -/

namespace Sys2Proof.Machine

/-! ## Shifts, rotates, increments, decrements, `PLA` -/

theorem exec_asl (o : Operand) (s : State) : exec (.asl o) s = runShift (.asl o) asl s := rfl

theorem exec_lsr (o : Operand) (s : State) : exec (.lsr o) s = runShift (.lsr o) lsr s := rfl

theorem exec_rol (o : Operand) (s : State) : exec (.rol o) s = runShift (.rol o) rol s := rfl

theorem exec_ror (o : Operand) (s : State) : exec (.ror o) s = runShift (.ror o) ror s := rfl

theorem exec_inc (o : Operand) (s : State) : exec (.inc o) s = runModify (.inc o) increment State.setZN s := rfl

theorem exec_dec (o : Operand) (s : State) : exec (.dec o) s = runModify (.dec o) decrement State.setZN s := rfl

theorem exec_inx (s : State) : exec .inx s = runImplied .inx (fun s1 => (s1.setX (s1.x + 1)).setZN (s1.x + 1)) s := rfl

theorem exec_iny (s : State) : exec .iny s = runImplied .iny (fun s1 => (s1.setY (s1.y + 1)).setZN (s1.y + 1)) s := rfl

theorem exec_dex (s : State) : exec .dex s = runImplied .dex (fun s1 => (s1.setX (s1.x - 1)).setZN (s1.x - 1)) s := rfl

theorem exec_dey (s : State) : exec .dey s = runImplied .dey (fun s1 => (s1.setY (s1.y - 1)).setZN (s1.y - 1)) s := rfl

theorem exec_pla (s : State) :
    exec .pla s = runImplied .pla (fun s1 => (s1.pull.2.setA s1.pull.1).setZN s1.pull.1) s := rfl

/-! ## Undocumented: read-modify-write combinations -/

theorem exec_slo (o : Operand) (s : State) :
    exec (.slo o) s = runModify (.slo o) asl (fun r s1 => (s1.setA (s1.a ||| r)).setZN (s1.a ||| r)) s := rfl

theorem exec_rla (o : Operand) (s : State) :
    exec (.rla o) s = runModify (.rla o) rol (fun r s1 => (s1.setA (s1.a &&& r)).setZN (s1.a &&& r)) s := rfl

theorem exec_sre (o : Operand) (s : State) :
    exec (.sre o) s = runModify (.sre o) lsr (fun r s1 => (s1.setA (s1.a ^^^ r)).setZN (s1.a ^^^ r)) s := rfl

theorem exec_rra (o : Operand) (s : State) :
    exec (.rra o) s = runModify (.rra o) ror State.addWithCarry s := rfl

theorem exec_dcp (o : Operand) (s : State) :
    exec (.dcp o) s = runModify (.dcp o) decrement (fun r s1 => s1.compare s1.a r) s := rfl

theorem exec_isc (o : Operand) (s : State) :
    exec (.isc o) s = runModify (.isc o) increment (fun r s1 => s1.addWithCarry (r ^^^ 0xFF)) s := rfl

/-! ## Undocumented: loads and Immediate combinations -/

theorem exec_laxImm (d : Byte) (s : State) :
    exec (.laxImm d) s =
      runRead (.laxImm d) (fun m s1 =>
        ((s1.setA (laxImmResult Config.magic s1.a m)).setX (laxImmResult Config.magic s1.a m)).setZN
          (laxImmResult Config.magic s1.a m)) s := rfl

theorem exec_las (w : Word) (s : State) :
    exec (.las w) s =
      runRead (.las w) (fun m s1 =>
        (((s1.setA (m &&& s1.sp)).setX (m &&& s1.sp)).setSP (m &&& s1.sp)).setZN (m &&& s1.sp)) s := rfl

theorem exec_anc (opcode d : Byte) (s : State) :
    exec (.anc opcode d) s =
      runRead (.anc opcode d) (fun m s1 =>
        ((s1.setA (s1.a &&& m)).setZN (s1.a &&& m)).setC ((s1.a &&& m).getLsbD 7)) s := rfl

theorem exec_alr (d : Byte) (s : State) :
    exec (.alr d) s =
      runRead (.alr d) (fun m s1 =>
        ((s1.setC (lsr (s1.a &&& m) s1.flagC).2).setA (lsr (s1.a &&& m) s1.flagC).1).setZN
          (lsr (s1.a &&& m) s1.flagC).1) s := rfl

theorem exec_arr (d : Byte) (s : State) :
    exec (.arr d) s =
      runRead (.arr d) (fun m s1 =>
        let r := arrResult (s1.a &&& m) s1.flagC
        (((s1.setA r).setZN r).setC (r.getLsbD 6)).setV (r.getLsbD 6 ^^ r.getLsbD 5)) s := rfl

theorem exec_xaa (d : Byte) (s : State) :
    exec (.xaa d) s =
      runRead (.xaa d) (fun m s1 =>
        (s1.setA (xaaResult Config.magic s1.a s1.x m)).setZN (xaaResult Config.magic s1.a s1.x m)) s := rfl

theorem exec_axs (d : Byte) (s : State) :
    exec (.axs d) s =
      runRead (.axs d) (fun m s1 => (s1.compare (s1.a &&& s1.x) m).setX ((s1.a &&& s1.x) - m)) s := rfl

end Sys2Proof.Machine
end

section
/-! `Z` and `N` (R25, R31, R180): the instructions that write them, by the shape of their execution, and that what an
instruction answers has the flags of its result byte. -/

namespace Sys2Proof.Machine

/-- `Z` and `N` are those that `SetZN` makes of the byte. -/
structure State.HasZN (t : State) (r : Byte) : Prop where
  zero : t.flagZ = (r == 0)
  negative : t.flagN = r.getLsbD 7

theorem State.HasZN.flagZ_iff {t : State} {r : Byte} (h : t.HasZN r) : t.flagZ = true ↔ r = 0 := by
  rw [h.zero, beq_iff_eq]

theorem State.HasZN.flagN_iff {t : State} {r : Byte} (h : t.HasZN r) : t.flagN = true ↔ r.toNat / 128 = 1 := by
  rw [h.negative, getLsbD_seven_iff]

/-- R180: a byte that is 0 has bit 7 clear. -/
theorem State.HasZN.not_both {t : State} {r : Byte} (h : t.HasZN r) : ¬ (t.flagZ = true ∧ t.flagN = true) := by
  rw [h.flagZ_iff, h.flagN_iff]
  rintro ⟨rfl, bit7⟩
  exact absurd bit7 (by decide)

theorem State.setZN_hasZN (v : Byte) (s : State) : (s.setZN v).HasZN v := ⟨rfl, rfl⟩

/-- R210: the last transaction of a read-modify-write is the write of the new value. -/
theorem lastWritten_readModifyWrite (g : Byte → Bool → Byte × Bool) (ea : Word) (s : State) :
    (readModifyWrite g ea s).2.lastWritten = some (readModifyWrite g ea s).1 := by
  rw [readModifyWrite_eq]
  rfl

/-- R200 to R205: in a shift, on `A` or on memory, the flags are those of the byte it wrote. -/
theorem runShift_hasZN {i : Instr} {g : Byte → Bool → Byte × Bool} {s t : State} (h : runShift i g s = .next t) :
    ∃ r, (if i.operand = .acc then some t.a else t.lastWritten) = some r ∧ t.HasZN r := by
  obtain ⟨f, -, ⟨acc, rfl⟩ | ⟨memory, ea, tr, -, rfl⟩⟩ := runShift_next h
  · exact ⟨_, if_pos acc, rfl, rfl⟩
  · exact ⟨_, (if_neg memory).trans (lastWritten_readModifyWrite g ea _), rfl, rfl⟩

/-- R180: every instruction that writes `Z` and `N` of one byte leaves them as `SetZN` makes them of its result byte. -/
theorem exec_hasZN {i : Instr} {s t : State} (writes : writesZN i = true) (bit : ∀ o, i ≠ .bit o) (plp : i ≠ .plp)
    (rti : i ≠ .rti) (h : exec i s = .next t) : ∃ r, resultByte i s t = some r ∧ t.HasZN r := by
  cases i
  case lda | ldx | ldy | ora | and | eor | adc | sbc | lax | laxImm | las | anc | alr | arr | xaa | axs | sbcU =>
    simp only [exec_lda, exec_ldx, exec_ldy, exec_ora, exec_and, exec_eor, exec_adc, exec_sbc, exec_lax, exec_laxImm,
      exec_las, exec_anc, exec_alr, exec_arr, exec_xaa, exec_axs, exec_sbcU] at h
    obtain ⟨f, m, tr, -, -, rfl⟩ := runRead_next h
    exact ⟨_, rfl, rfl, rfl⟩
  case cmp | cpx | cpy =>
    simp only [exec_cmp, exec_cpx, exec_cpy] at h
    obtain ⟨f, m, tr, -, reads, rfl⟩ := runRead_next h
    exact ⟨_, congrArg (Option.map _) reads, rfl, rfl⟩
  case tax | tay | txa | tya | tsx | inx | iny | dex | dey | pla =>
    simp only [exec_tax, exec_tay, exec_txa, exec_tya, exec_tsx, exec_inx, exec_iny, exec_dex, exec_dey, exec_pla] at h
    obtain ⟨f, -, rfl⟩ := runImplied_next h
    exact ⟨_, rfl, rfl, rfl⟩
  case asl | lsr | rol | ror =>
    simp only [exec_asl, exec_lsr, exec_rol, exec_ror] at h
    exact runShift_hasZN h
  case inc | dec =>
    simp only [exec_inc, exec_dec] at h
    obtain ⟨f, ea, tr, -, -, rfl⟩ := runModify_next h
    exact ⟨_, lastWritten_readModifyWrite _ ea _, rfl, rfl⟩
  case slo | rla | sre | rra | isc =>
    simp only [exec_slo, exec_rla, exec_sre, exec_rra, exec_isc] at h
    obtain ⟨f, ea, tr, -, -, rfl⟩ := runModify_next h
    exact ⟨_, rfl, rfl, rfl⟩
  case dcp =>
    rw [exec_dcp] at h
    obtain ⟨f, ea, tr, -, -, rfl⟩ := runModify_next h
    exact ⟨_, congrArg (Option.map _) (lastWritten_readModifyWrite _ ea _), rfl, rfl⟩
  case bit o => exact absurd rfl (bit o)
  case plp => exact absurd rfl plp
  case rti => exact absurd rfl rti
  all_goals exact absurd writes Bool.false_ne_true

/-- Settles O22: `SetZN` by its two flags, which exclude each other, and an instruction by its result byte. -/
theorem zeroNegativeLaw : Obligations.ZeroNegativeLaw := by
  refine ⟨?setZN, ?instructions⟩
  case setZN =>
    intro v s
    have flags := State.setZN_hasZN v s
    exact ⟨_, _, rfl, flags.flagZ_iff, flags.flagN_iff, flags.not_both⟩
  case instructions =>
    intro i s t writes bit plp rti h
    obtain ⟨r, result, flags⟩ := exec_hasZN writes bit plp rti h
    exact ⟨r, result, flags.flagZ_iff, flags.flagN_iff⟩

end Sys2Proof.Machine
end

section
/-! The one-bit functions (R211): their results as numbers, the rotates as rotations of the nine bits of `C` and the
byte, and that `Ror` undoes `Rol`. -/

namespace Sys2Proof.Machine

/-! ## Results and carries as numbers -/

theorem toNat_getLsbD_seven (v : Byte) : (v.getLsbD 7).toNat = v.toNat / 128 := by
  rw [BitVec.getLsbD, Nat.toNat_testBit]
  have := v.isLt
  omega

theorem toNat_getLsbD_zero (v : Byte) : (v.getLsbD 0).toNat = v.toNat % 2 := by
  rw [BitVec.getLsbD, Nat.toNat_testBit, pow_zero, Nat.div_one]

theorem asl_toNat (v : Byte) (c : Bool) : (asl v c).1.toNat = v.toNat * 2 % 256 := by
  simp only [asl, BitVec.toNat_shiftLeft, Nat.shiftLeft_eq, pow_one]

theorem lsr_toNat (v : Byte) (c : Bool) : (lsr v c).1.toNat = v.toNat / 2 := by
  simp only [lsr, BitVec.toNat_ushiftRight, Nat.shiftRight_eq_div_pow, pow_one]

/-- The bit rotated in takes the place that the shift cleared, so the addition does not overflow. -/
theorem rol_toNat (v : Byte) (c : Bool) : (rol v c).1.toNat = v.toNat * 2 % 256 + c.toNat := by
  simp only [rol, BitVec.toNat_add, BitVec.toNat_shiftLeft, BitVec.toNat_ofNat, Nat.shiftLeft_eq, pow_one]
  have := c.toNat_le
  omega

theorem ror_toNat (v : Byte) (c : Bool) : (ror v c).1.toNat = v.toNat / 2 + 128 * c.toNat := by
  simp only [ror, BitVec.toNat_add, BitVec.toNat_ushiftRight, BitVec.toNat_ofNat, Nat.shiftRight_eq_div_pow, pow_one]
  have := v.isLt
  have := c.toNat_le
  omega

theorem asl_carry (v : Byte) (c : Bool) : (asl v c).2 = v.getLsbD 7 := rfl

theorem lsr_carry (v : Byte) (c : Bool) : (lsr v c).2 = v.getLsbD 0 := rfl

theorem rol_carry (v : Byte) (c : Bool) : (rol v c).2 = v.getLsbD 7 := rfl

theorem ror_carry (v : Byte) (c : Bool) : (ror v c).2 = v.getLsbD 0 := rfl

/-! ## Nine rotations -/

/-- The nine bits that a rotate turns: `C` above the byte. -/
def nineBits (p : Byte × Bool) : BitVec 9 := p.1.cons p.2

theorem nineBits_injective : Function.Injective nineBits := by
  rintro ⟨v, c⟩ ⟨w, d⟩ h
  have byte : v = w := by simpa [nineBits] using congrArg (BitVec.setWidth 8) h
  have carry : c = d := by simpa [nineBits] using congrArg BitVec.msb h
  rw [byte, carry]

/-- `Rol` puts the old carry below the byte, and bit 7 into the carry. -/
theorem nineBits_rol (v : Byte) (c : Bool) : nineBits (rol v c) = v.concat c := by
  apply BitVec.eq_of_toNat_eq
  rw [nineBits, BitVec.toNat_cons', BitVec.toNat_concat, rol_toNat, rol_carry, toNat_getLsbD_seven, Nat.shiftLeft_eq]
  omega

/-- `Rol` turns the nine bits left by one: each takes the place of the next, bit 8 that of bit 0. -/
theorem getLsbD_nineBits_rol (p : Byte × Bool) {i : Nat} (h : i < 9) :
    (nineBits (rol.uncurry p)).getLsbD i = (nineBits p).getLsbD ((i + 8) % 9) := by
  rw [Function.uncurry, nineBits_rol, nineBits, BitVec.getLsbD_concat, BitVec.getLsbD_cons]
  cases i with
  | zero => rfl
  | succ i =>
    have next : (i + 1 + 8) % 9 = i := by omega
    have inByte : i ≠ 8 := by omega
    simp only [next, inByte, Nat.add_one_ne_zero, Nat.add_sub_cancel, if_false]

theorem getLsbD_nineBits_iterate_rol (n : Nat) (p : Byte × Bool) {i : Nat} (h : i < 9) :
    (nineBits (rol.uncurry^[n] p)).getLsbD i = (nineBits p).getLsbD ((i + 8 * n) % 9) := by
  induction n generalizing p with
  | zero => rw [Function.iterate_zero, id, Nat.mul_zero, Nat.add_zero, Nat.mod_eq_of_lt h]
  | succ n ih =>
    rw [Function.iterate_succ_apply, ih, getLsbD_nineBits_rol _ (Nat.mod_lt _ (by decide)), Nat.mod_add_mod,
      Nat.mul_succ, Nat.add_assoc]

/-- R211: nine rotations left restore the byte and the carry. -/
theorem rol_iterate_nine (p : Byte × Bool) : rol.uncurry^[9] p = p := by
  apply nineBits_injective
  apply BitVec.eq_of_getLsbD_eq
  intro i h
  rw [getLsbD_nineBits_iterate_rol 9 p h, Nat.add_mul_mod_self_right, Nat.mod_eq_of_lt h]

/-- `Ror` undoes `Rol`. -/
theorem ror_rol (p : Byte × Bool) : ror.uncurry (rol.uncurry p) = p := by
  obtain ⟨v, c⟩ := p
  have byte : (ror (rol v c).1 (rol v c).2).1 = v := by
    apply BitVec.eq_of_toNat_eq
    rw [ror_toNat, rol_toNat, rol_carry, toNat_getLsbD_seven]
    have := c.toNat_le
    omega
  have carry : (ror (rol v c).1 (rol v c).2).2 = c := by
    rw [Bool.eq_iff_iff, ← Bool.toNat_eq_one, ← Bool.toNat_eq_one, ror_carry, toNat_getLsbD_zero, rol_toNat]
    have := c.toNat_le
    omega
  exact Prod.ext byte carry

/-- R211: nine rotations right undo nine rotations left, which restore the byte and the carry. -/
theorem ror_iterate_nine (p : Byte × Bool) : ror.uncurry^[9] p = p := by
  have undone : ror.uncurry^[9] (rol.uncurry^[9] p) = p := Function.LeftInverse.iterate ror_rol 9 p
  rwa [rol_iterate_nine] at undone

/-- Settles O26: the table by its arithmetic, the rotations as those of nine bits. -/
theorem oneBitFunctions : Obligations.OneBitFunctions := fun v c =>
  ⟨⟨asl_toNat v c, asl_carry v c⟩, ⟨lsr_toNat v c, lsr_carry v c⟩, ⟨rol_toNat v c, rol_carry v c⟩,
    ⟨ror_toNat v c, ror_carry v c⟩, rol_iterate_nine (v, c), ror_iterate_nine (v, c)⟩

end Sys2Proof.Machine
end

section
/-! Shifts, rotates, increments and decrements (44_shift_rotate_incdec.md): what a read-modify-write row answers, what a
shift answers in Accumulator mode and on memory, and that each row has its shape. -/

namespace Sys2Proof.Machine

/-! ## Read-modify-write -/

/-- R210: a read-modify-write row makes one read and one write, of the new value and at the same address, sets `C` as
the function gives it, and answers its effect with the cycles charged. -/
theorem AddressedRow.runModify_answers {i : Instr} (row : AddressedRow i) (g : Byte → Bool → Byte × Bool)
    (effect : Byte → State → State) (s : State) :
    ∃ ea m tr, s.ResolvesTo i.operand ea tr ∧ m = ({ s with trace := tr }).peek ea ∧
      runModify i g effect s =
        .next
          { effect (g m s.flagC).1
              { s with
                mem := s.stored ea (g m s.flagC).1, flagC := (g m s.flagC).2
                trace := .write ea (g m s.flagC).1 :: .read ea m :: tr } with
            cyclesRemaining := cyclesAfter i s } := by
  obtain ⟨f, form⟩ := row.form
  obtain ⟨ea, tr, hea, resolved, resolves⟩ := resolvesTo row.ne_imp row.ne_acc s
  refine ⟨ea, _, tr, resolves, rfl, ?_⟩
  rw [runModify_eq form hea, resolved, charge_eq_cyclesAfter form, readModifyWrite_eq]
  rfl

theorem addressedRow_inc {o : Operand} (wf : (Instr.inc o).WellFormed) : AddressedRow (.inc o) :=
  .of_wellFormed rfl rfl rfl (Laws.FormMatches.inc o) wf

theorem addressedRow_dec {o : Operand} (wf : (Instr.dec o).WellFormed) : AddressedRow (.dec o) :=
  .of_wellFormed rfl rfl rfl (Laws.FormMatches.dec o) wf

/-- Settles O38: the forms mode by mode; both are read-modify-write rows whose function leaves the carry. -/
theorem memoryIncrementResults : Obligations.MemoryIncrementResults := by
  refine ⟨?incForms, ?decForms, ?results⟩
  case incForms | decForms =>
    intro o
    cases o <;> rfl
  case results =>
    rintro i o s r wf (⟨rfl, rfl⟩ | ⟨rfl, rfl⟩)
    · rw [exec_inc]
      exact (addressedRow_inc wf).runModify_answers increment State.setZN s
    · rw [exec_dec]
      exact (addressedRow_dec wf).runModify_answers decrement State.setZN s

/-! ## Shifts and rotates -/

/-- A row that shifts by `g`: on `A`, in two cycles, in Accumulator mode; on memory in the others. -/
structure ShiftRow (i : Instr) (g : Byte → Bool → Byte × Bool) : Prop where
  exec_eq : ∀ s, exec i s = runShift i g s
  accumulator : i.operand = .acc → ∃ opcode, i.form = some ⟨opcode, 2, .never⟩
  memory : i.operand ≠ .acc → AddressedRow i

/-- A row of a mnemonic that has no Implied row, in a mode other than Accumulator. -/
theorem AddressedRow.of_ne_acc {make : Operand → Instr} {o : Operand} (operand : (make o).operand = o)
    (imp : (make .imp).wellFormed = false) (agrees : Laws.FormMatches.Statement (make o))
    (wf : (make o).WellFormed) (ne_acc : (make o).operand ≠ .acc) : AddressedRow (make o) where
  form := Option.isSome_iff_exists.mp (agrees.1 ▸ wf)
  ne_imp := by
    rw [operand]
    rintro rfl
    exact Bool.eq_false_iff.mp imp wf
  ne_acc := ne_acc

theorem shiftRow_asl {o : Operand} (wf : (Instr.asl o).WellFormed) : ShiftRow (.asl o) asl where
  exec_eq := exec_asl o
  accumulator := by rintro ⟨⟩; exact ⟨_, rfl⟩
  memory := .of_ne_acc rfl rfl (Laws.FormMatches.asl o) wf

theorem shiftRow_lsr {o : Operand} (wf : (Instr.lsr o).WellFormed) : ShiftRow (.lsr o) lsr where
  exec_eq := exec_lsr o
  accumulator := by rintro ⟨⟩; exact ⟨_, rfl⟩
  memory := .of_ne_acc rfl rfl (Laws.FormMatches.lsr o) wf

theorem shiftRow_rol {o : Operand} (wf : (Instr.rol o).WellFormed) : ShiftRow (.rol o) rol where
  exec_eq := exec_rol o
  accumulator := by rintro ⟨⟩; exact ⟨_, rfl⟩
  memory := .of_ne_acc rfl rfl (Laws.FormMatches.rol o) wf

theorem shiftRow_ror {o : Operand} (wf : (Instr.ror o).WellFormed) : ShiftRow (.ror o) ror where
  exec_eq := exec_ror o
  accumulator := by rintro ⟨⟩; exact ⟨_, rfl⟩
  memory := .of_ne_acc rfl rfl (Laws.FormMatches.ror o) wf

/-- In Accumulator mode a shift is an instruction without operand, whose effect is on `A`. -/
theorem runShift_acc {i : Instr} (acc : i.operand = .acc) (g : Byte → Bool → Byte × Bool) (s : State) :
    runShift i g s =
      runImplied i (fun s1 =>
        ((s1.setC (g s1.a s1.flagC).2).setA (g s1.a s1.flagC).1).setZN (g s1.a s1.flagC).1) s := by
  simp only [runShift, acc]

theorem runShift_memory {i : Instr} (memory : i.operand ≠ .acc) (g : Byte → Bool → Byte × Bool) (s : State) :
    runShift i g s = runModify i g State.setZN s := by
  unfold runShift
  split
  · exact absurd ‹_› memory
  · rfl


/-- R180: `Z` and `N` of a byte by its number. -/
theorem beq_zero_eq_toNat (v : Byte) : (v == 0) = (v.toNat == 0) := by
  rw [Bool.eq_iff_iff, beq_iff_eq, beq_iff_eq, ← BitVec.toNat_inj]
  rfl

theorem getLsbD_seven_eq_toNat (v : Byte) : v.getLsbD 7 = decide (v.toNat ≥ 128) := by
  rw [Bool.eq_iff_iff, getLsbD_seven_iff, decide_eq_true_iff]
  have := v.isLt
  omega

/-- R200 to R203 in Accumulator mode, with the result as a number. -/
theorem ShiftRow.accumulator_answers {i : Instr} {g : Byte → Bool → Byte × Bool} (row : ShiftRow i g) {s : State}
    {r : Byte → Nat} {carry : Nat} (result : ∀ v, (g v s.flagC).1.toNat = r v)
    (out : ∀ v, (g v s.flagC).2 = v.getLsbD carry) (acc : i.operand = .acc) :
    exec i s = .next
      { s with
        a := BitVec.ofNat 8 (r s.a), flagC := s.a.getLsbD carry, flagZ := r s.a == 0
        flagN := r s.a ≥ 128, cyclesRemaining := 1 } := by
  obtain ⟨opcode, form⟩ := row.accumulator acc
  rw [row.exec_eq, runShift_acc acc, runImplied_twoCycles form, ← out, ← result, BitVec.ofNat_toNat,
    BitVec.setWidth_eq, ← beq_zero_eq_toNat, ← getLsbD_seven_eq_toNat]
  rfl

/-- R200 to R203 on memory, with the result as a number. -/
theorem ShiftRow.memory_answers {i : Instr} {g : Byte → Bool → Byte × Bool} (row : ShiftRow i g) {s : State}
    {r : Byte → Nat} {carry : Nat} (result : ∀ v, (g v s.flagC).1.toNat = r v)
    (out : ∀ v, (g v s.flagC).2 = v.getLsbD carry) (memory : i.operand ≠ .acc) :
    ∃ ea m tr, s.ResolvesTo i.operand ea tr ∧ m = ({ s with trace := tr }).peek ea ∧
      exec i s = .next
        { s with
          mem := s.stored ea (BitVec.ofNat 8 (r m)), flagC := m.getLsbD carry, flagZ := r m == 0
          flagN := r m ≥ 128, cyclesRemaining := cyclesAfter i s
          trace := .write ea (BitVec.ofNat 8 (r m)) :: .read ea m :: tr } := by
  obtain ⟨ea, m, tr, resolves, peeked, answers⟩ := (row.memory memory).runModify_answers g State.setZN s
  refine ⟨ea, m, tr, resolves, peeked, ?_⟩
  rw [row.exec_eq, runShift_memory memory, answers, ← out, ← result, BitVec.ofNat_toNat, BitVec.setWidth_eq,
    ← beq_zero_eq_toNat, ← getLsbD_seven_eq_toNat]
  rfl

/-- Settles O37: the forms mode by mode; each instruction is a shift row, whose one-bit function gives the number and
the carry of the rule. -/
theorem shiftAndRotateResults : Obligations.ShiftAndRotateResults := by
  refine ⟨?aslForms, ?lsrForms, ?rolForms, ?rorForms, ?results⟩
  case aslForms | lsrForms | rolForms | rorForms =>
    intro o
    cases o <;> rfl
  case results =>
    intro i o s r carry wf which
    obtain ⟨g, row, rfl, result, out⟩ : ∃ g, ShiftRow i g ∧ i.operand = o ∧ (∀ v, (g v s.flagC).1.toNat = r v) ∧
        ∀ v, (g v s.flagC).2 = v.getLsbD carry := by
      rcases which with ⟨rfl, rfl, rfl⟩ | ⟨rfl, rfl, rfl⟩ | ⟨rfl, rfl, rfl⟩ | ⟨rfl, rfl, rfl⟩
      · exact ⟨asl, shiftRow_asl wf, rfl, fun v => asl_toNat v _, fun v => asl_carry v _⟩
      · exact ⟨lsr, shiftRow_lsr wf, rfl, fun v => lsr_toNat v _, fun v => lsr_carry v _⟩
      · exact ⟨rol, shiftRow_rol wf, rfl, fun v => rol_toNat v _, fun v => rol_carry v _⟩
      · exact ⟨ror, shiftRow_ror wf, rfl, fun v => ror_toNat v _, fun v => ror_carry v _⟩
    exact ⟨row.accumulator_answers result out, row.memory_answers result out⟩

/-! ## Register increments and decrements -/

/-- Settles O39: each is an instruction without operand, of two cycles, whose effect sets the register and then `Z` and
`N`. -/
theorem registerIncrementResults : Obligations.RegisterIncrementResults := by
  intro s
  refine ⟨encode_implied rfl rfl, encode_implied rfl rfl, encode_implied rfl rfl, encode_implied rfl rfl,
    ?inx, ?iny, ?dex, ?dey⟩
  case inx => rw [exec_inx, runImplied_twoCycles rfl]; rfl
  case iny => rw [exec_iny, runImplied_twoCycles rfl]; rfl
  case dex => rw [exec_dex, runImplied_twoCycles rfl]; rfl
  case dey => rw [exec_dey, runImplied_twoCycles rfl]; rfl

end Sys2Proof.Machine
end

section
/-! Branches, jumps and subroutines (45_branch_jump_subroutine.md): the target of a branch and the page-wrapped pointer
as numbers, what a taken and an untaken branch answer, what `JMP` answers by the address its operand resolves to, and
the stack effects of `JSR` and `RTS`. -/

namespace Sys2Proof.Machine

/-! ## The bytes of a row, and a signed byte -/

/-- The bytes of a row of the opcode table (R92). -/
theorem encode_eq {i : Instr} {f : Form} (h : i.form = some f) : encode i = f.opcode :: i.operand.bytes := by
  simp only [encode, h]

/-- A sign-extended byte counts, modulo 65536, as the byte's signed value. -/
theorem sext16_toNat (b : Byte) : ((sext16 b).toNat : Int) = b.toInt % 65536 := by
  rw [sext16, BitVec.signExtend, BitVec.toNat_ofInt, Int.toNat_of_nonneg (Int.emod_nonneg _ (by decide))]
  rfl

/-! ## Branches -/

theorem exec_bpl (d : Byte) (s : State) : exec (.bpl d) s = runBranch (.bpl d) d (!s.flagN) s := rfl

theorem exec_bmi (d : Byte) (s : State) : exec (.bmi d) s = runBranch (.bmi d) d s.flagN s := rfl

theorem exec_bvc (d : Byte) (s : State) : exec (.bvc d) s = runBranch (.bvc d) d (!s.flagV) s := rfl

theorem exec_bvs (d : Byte) (s : State) : exec (.bvs d) s = runBranch (.bvs d) d s.flagV s := rfl

theorem exec_bcc (d : Byte) (s : State) : exec (.bcc d) s = runBranch (.bcc d) d (!s.flagC) s := rfl

theorem exec_bcs (d : Byte) (s : State) : exec (.bcs d) s = runBranch (.bcs d) d s.flagC s := rfl

theorem exec_bne (d : Byte) (s : State) : exec (.bne d) s = runBranch (.bne d) d (!s.flagZ) s := rfl

theorem exec_beq (d : Byte) (s : State) : exec (.beq d) s = runBranch (.beq d) d s.flagZ s := rfl

/-- R154: the displacement is signed, and the sum wraps. -/
theorem branchTarget_toNat (d : Byte) (s : State) :
    ((branchTarget d s).toNat : Int) = ((s.pc.toNat : Int) + d.toInt) % 65536 := by
  have signed := sext16_toNat d
  rw [branchTarget, BitVec.toNat_add]
  omega

/-- R220: an untaken branch takes its two base cycles. -/
theorem runBranch_untaken {i : Instr} {opcode : Byte} (h : i.form = some ⟨opcode, 2, .branch⟩) (d : Byte) (s : State) :
    runBranch i d false s = .next { s with cyclesRemaining := 1 } :=
  runBranch_eq h d false s

/-- R220, D17: a taken branch adds one cycle, and one more when the target is in another page than the next
instruction. -/
theorem runBranch_taken {i : Instr} {opcode : Byte} (h : i.form = some ⟨opcode, 2, .branch⟩) (d : Byte) (s : State) :
    runBranch i d true s = .next
      { s with
        pc := branchTarget d s
        cyclesRemaining := if (branchTarget d s).toNat / 256 = s.pc.toNat / 256 then 2 else 3 } := by
  rw [runBranch_eq h, if_pos rfl, charge_eq]
  by_cases samePage : (branchTarget d s).toNat / 256 = s.pc.toNat / 256
  · have stays : pageDiffers (branchTarget d s) s.pc = false :=
      Bool.eq_false_iff.mpr fun differs => (pageDiffers_iff _ _).mp differs samePage
    rw [stays, if_pos samePage]
    rfl
  · rw [(pageDiffers_iff _ _).mpr samePage, if_neg samePage]
    rfl

/-- Settles O40: each branch is a row of two base cycles that runs `Branch` on its condition. -/
theorem branchResults : Obligations.BranchResults := by
  intro i s d op cond which
  obtain ⟨form, operand, runs⟩ :
      i.form = some ⟨op, 2, .branch⟩ ∧ i.operand = .rel d ∧ exec i s = runBranch i d cond s := by
    rcases which with ⟨rfl, rfl, rfl⟩ | ⟨rfl, rfl, rfl⟩ | ⟨rfl, rfl, rfl⟩ | ⟨rfl, rfl, rfl⟩ | ⟨rfl, rfl, rfl⟩ |
      ⟨rfl, rfl, rfl⟩ | ⟨rfl, rfl, rfl⟩ | ⟨rfl, rfl, rfl⟩
    · exact ⟨rfl, rfl, exec_bpl d s⟩
    · exact ⟨rfl, rfl, exec_bmi d s⟩
    · exact ⟨rfl, rfl, exec_bvc d s⟩
    · exact ⟨rfl, rfl, exec_bvs d s⟩
    · exact ⟨rfl, rfl, exec_bcc d s⟩
    · exact ⟨rfl, rfl, exec_bcs d s⟩
    · exact ⟨rfl, rfl, exec_bne d s⟩
    · exact ⟨rfl, rfl, exec_beq d s⟩
  refine ⟨?bytes, ?untaken, ?taken⟩
  case bytes => rw [encode_eq form, operand, Operand.bytes]
  case untaken =>
    rintro rfl
    rw [runs, runBranch_untaken form]
  case taken =>
    rintro rfl
    exact ⟨branchTarget d s, branchTarget_toNat d s, by rw [runs, runBranch_taken form]⟩

/-! ## Jumps -/

theorem exec_jmp (o : Operand) (s : State) :
    exec (.jmp o) s = runAddressed (.jmp o) (fun ea _ s1 => s1.setPC ea) s := rfl

/-- R229: a `JMP` row goes to the address its operand resolves to, in its base cycles. -/
theorem exec_jmp_of_resolve {o : Operand} {opcode : Byte} {cycles : Nat} {ea : Word} {base : Option Word}
    {crossed : Bool} {s s1 : State} (form : (Instr.jmp o).form = some ⟨opcode, cycles, .never⟩)
    (resolved : resolve o s = (⟨some ea, base, crossed⟩, s1)) :
    exec (.jmp o) s = .next { s1 with pc := ea, cyclesRemaining := cycles - 1 } := by
  have hea : (resolve (Instr.jmp o).operand s).1.ea = some ea := congrArg (·.1.ea) resolved
  rw [exec_jmp, runAddressed_eq form hea, Instr.operand, resolved]
  rfl

theorem resolve_abs (w : Word) (s : State) : resolve (.abs w) s = (⟨some w, some w, false⟩, s) := rfl

/-- R150: the two reads of a pointer's word, the high byte's in the pointer's own page. -/
theorem resolve_ind (w : Word) (s : State) :
    resolve (.ind w) s =
      (⟨some (s.readPair w (w16 (hi w) (lo w + 1))).1, some w, false⟩,
        (s.readPair w (w16 (hi w) (lo w + 1))).2) := rfl

/-- R69, R150: the high byte of a pointer's word lies in the pointer's own page. -/
theorem w16_hi_lo_succ_toNat (w : Word) :
    (w16 (hi w) (lo w + 1)).toNat = w.toNat / 256 * 256 + (w.toNat + 1) % 256 := by
  rw [w16_toNat, hi_toNat, BitVec.toNat_add, lo_toNat]
  simp

/-- Settles O41: the forms mode by mode; each form resolves to its target, the indirect one by two reads in the
pointer's page. -/
theorem jumpResults : Obligations.JumpResults := by
  refine ⟨?forms, ?absolute, ?indirect⟩
  case forms =>
    intro o
    cases o <;> rfl
  case absolute =>
    intro w s
    exact exec_jmp_of_resolve rfl (resolve_abs w s)
  case indirect =>
    intro w aHigh s samePage
    obtain rfl : aHigh = w16 (hi w) (lo w + 1) :=
      BitVec.eq_of_toNat_eq (samePage.trans (w16_hi_lo_succ_toNat w).symm)
    obtain ⟨l, h, low, high, pair⟩ := s.readPair_eq w (w16 (hi w) (lo w + 1))
    refine ⟨l, h, low, high, ?_⟩
    have resolved := resolve_ind w s
    rw [pair] at resolved
    exact exec_jmp_of_resolve rfl resolved

/-! ## Subroutines -/

theorem exec_jsr (w : Word) (s : State) :
    exec (.jsr w) s =
      runAddressed (.jsr w) (fun ea _ s1 => ((s1.push (hi (s1.pc - 1))).push (lo (s1.pc - 1))).setPC ea) s := rfl

theorem exec_rts (s : State) :
    exec .rts s =
      runImplied .rts (fun s1 => s1.pull.2.pull.2.setPC (w16 s1.pull.2.pull.1 s1.pull.1 + 1)) s := rfl

/-- Settles O42: `JSR` is a row whose operand resolves to the target, `RTS` an instruction without operand. -/
theorem subroutineResults : Obligations.SubroutineResults := by
  intro w s
  refine ⟨encode_eq (i := .jsr w) rfl, ?jsr, encode_implied rfl rfl, s.pull.1, s.pull.2.pull.1, s.pull.2, s.pull.2.pull.2,
    rfl, rfl, ?rts⟩
  case jsr =>
    rw [exec_jsr, runAddressed_eq rfl rfl]
    rfl
  case rts =>
    rw [exec_rts, runImplied_eq rfl]
    rfl

end Sys2Proof.Machine
end

section
/-! The stack, flag and no-operation instructions (46_stack_flag_system.md): the effect of each, what a push and a pull
leave, and the one flag each flag instruction writes. -/

namespace Sys2Proof.Machine

/-! ## Pushes and pulls -/

theorem exec_pha (s : State) : exec .pha s = runImplied .pha (fun s1 => s1.push s1.a) s := rfl

theorem exec_php (s : State) : exec .php s = runImplied .php (fun s1 => s1.push (s1.pByte true)) s := rfl

theorem exec_plp (s : State) : exec .plp s = runImplied .plp (fun s1 => s1.pull.2.setP s1.pull.1) s := rfl

/-- Settles O44: each is an instruction without operand; the pushes, of three cycles, write at the old `SP`, and the
pulls, of four, read at the new one. -/
theorem stackInstructionResults : Obligations.StackInstructionResults := by
  intro s
  refine ⟨encode_implied rfl rfl, encode_implied rfl rfl, encode_implied rfl rfl, encode_implied rfl rfl,
    ?pha, ?php, stackAddr (s.sp + 1), s.pull.1, rfl, s.pull_value, ?pla, ?plp⟩
  case pha => rw [exec_pha, runImplied_eq rfl, State.push_eq]; rfl
  case php => rw [exec_php, runImplied_eq rfl, State.push_eq]; rfl
  case pla => rw [exec_pla, runImplied_eq rfl, State.pull_eq]; rfl
  case plp => rw [exec_plp, runImplied_eq rfl, State.setP_eq, State.pull_eq]; rfl

/-! ## Flag instructions and `NOP` -/

theorem exec_clc (s : State) : exec .clc s = runImplied .clc (State.setC false) s := rfl

theorem exec_sec (s : State) : exec .sec s = runImplied .sec (State.setC true) s := rfl

theorem exec_cli (s : State) : exec .cli s = runImplied .cli (State.setI false) s := rfl

theorem exec_sei (s : State) : exec .sei s = runImplied .sei (State.setI true) s := rfl

theorem exec_clv (s : State) : exec .clv s = runImplied .clv (State.setV false) s := rfl

theorem exec_cld (s : State) : exec .cld s = runImplied .cld (State.setD false) s := rfl

theorem exec_sed (s : State) : exec .sed s = runImplied .sed (State.setD true) s := rfl

theorem exec_nop (s : State) : exec .nop s = runImplied .nop id s := rfl

/-- Settles O46: each is an instruction without operand, of two cycles, whose effect is one flag's update, or none. -/
theorem flagInstructionResults : Obligations.FlagInstructionResults := by
  intro s
  refine ⟨encode_implied rfl rfl, encode_implied rfl rfl, encode_implied rfl rfl, encode_implied rfl rfl,
    encode_implied rfl rfl, encode_implied rfl rfl, encode_implied rfl rfl, encode_implied rfl rfl,
    ?clc, ?sec, ?cli, ?sei, ?clv, ?cld, ?sed, ?nop⟩
  case clc => rw [exec_clc, runImplied_twoCycles rfl]; rfl
  case sec => rw [exec_sec, runImplied_twoCycles rfl]; rfl
  case cli => rw [exec_cli, runImplied_twoCycles rfl]; rfl
  case sei => rw [exec_sei, runImplied_twoCycles rfl]; rfl
  case clv => rw [exec_clv, runImplied_twoCycles rfl]; rfl
  case cld => rw [exec_cld, runImplied_twoCycles rfl]; rfl
  case sed => rw [exec_sed, runImplied_twoCycles rfl]; rfl
  case nop => rw [exec_nop, runImplied_twoCycles rfl]; rfl

end Sys2Proof.Machine
end

section
/-! The undocumented combinations (47_undocumented.md): the read-modify-write ones, what a read-class row does with an
Immediate operand and the combinations on one, `LAS`, and the high-byte stores by the address they store at. -/

namespace Sys2Proof.Machine

/-! ## Read-modify-write combinations -/

/-- An operand form resolves in one way. -/
theorem State.ResolvesTo.unique {s : State} {o : Operand} {ea ea' : Word} {tr tr' : List BusTxn}
    (h : s.ResolvesTo o ea tr) (h' : s.ResolvesTo o ea' tr') : ea = ea' ∧ tr = tr' := by
  have same := Option.some.inj (h.symm.trans h')
  exact ⟨congrArg Prod.fst same, congrArg (·.2.trace) same⟩

/-- R210: what a read-modify-write row answers at a given address, with a given modified byte. -/
theorem AddressedRow.runModify_writes {i : Instr} (row : AddressedRow i) {s : State} {ea : Word} {tr : List BusTxn}
    (resolves : s.ResolvesTo i.operand ea tr) {g : Byte → Bool → Byte × Bool} {r : Byte}
    (result : r = (g (({ s with trace := tr } : State).peek ea) s.flagC).1) (effect : Byte → State → State) :
    runModify i g effect s =
      .next
        { effect r
            { s with
              mem := s.stored ea r, flagC := (g (({ s with trace := tr } : State).peek ea) s.flagC).2
              trace := .write ea r :: .read ea (({ s with trace := tr } : State).peek ea) :: tr } with
          cyclesRemaining := cyclesAfter i s } := by
  obtain ⟨ea', m, tr', resolves', rfl, answers⟩ := row.runModify_answers g effect s
  obtain ⟨rfl, rfl⟩ := resolves.unique resolves'
  rw [answers, ← result]

theorem addressedRow_slo {o : Operand} (wf : (Instr.slo o).WellFormed) : AddressedRow (.slo o) :=
  .of_wellFormed rfl rfl rfl (Laws.FormMatches.slo o) wf

theorem addressedRow_rla {o : Operand} (wf : (Instr.rla o).WellFormed) : AddressedRow (.rla o) :=
  .of_wellFormed rfl rfl rfl (Laws.FormMatches.rla o) wf

theorem addressedRow_sre {o : Operand} (wf : (Instr.sre o).WellFormed) : AddressedRow (.sre o) :=
  .of_wellFormed rfl rfl rfl (Laws.FormMatches.sre o) wf

theorem addressedRow_rra {o : Operand} (wf : (Instr.rra o).WellFormed) : AddressedRow (.rra o) :=
  .of_wellFormed rfl rfl rfl (Laws.FormMatches.rra o) wf

theorem addressedRow_dcp {o : Operand} (wf : (Instr.dcp o).WellFormed) : AddressedRow (.dcp o) :=
  .of_wellFormed rfl rfl rfl (Laws.FormMatches.dcp o) wf

theorem addressedRow_isc {o : Operand} (wf : (Instr.isc o).WellFormed) : AddressedRow (.isc o) :=
  .of_wellFormed rfl rfl rfl (Laws.FormMatches.isc o) wf

/-- Settles O49: the forms mode by mode; each combination is a read-modify-write row, whose one-bit function fixes the
modified byte by its number, and whose effect runs on the carry that function left. -/
theorem undocumentedModifyResults : Obligations.UndocumentedModifyResults := by
  refine ⟨?sloForms, ?rlaForms, ?sreForms, ?rraForms, ?dcpForms, ?iscForms, ?results⟩
  case sloForms | rlaForms | sreForms | rraForms | dcpForms | iscForms =>
    intro o
    cases o <;> rfl
  case results =>
    intro i o s wf which
    obtain ⟨row, operand⟩ : AddressedRow i ∧ i.operand = o := by
      rcases which with rfl | rfl | rfl | rfl | rfl | rfl
      · exact ⟨addressedRow_slo wf, rfl⟩
      · exact ⟨addressedRow_rla wf, rfl⟩
      · exact ⟨addressedRow_sre wf, rfl⟩
      · exact ⟨addressedRow_rra wf, rfl⟩
      · exact ⟨addressedRow_dcp wf, rfl⟩
      · exact ⟨addressedRow_isc wf, rfl⟩
    obtain ⟨ea, tr, -, -, resolves⟩ := resolvesTo row.ne_imp row.ne_acc s
    refine ⟨ea, _, tr, operand ▸ resolves, rfl, ?_⟩
    rintro r s1 rfl
    refine ⟨?slo, ?rla, ?sre, ?rra, ?dcp, ?isc⟩
    case slo =>
      rintro rfl result
      rw [exec_slo, row.runModify_writes resolves (BitVec.eq_of_toNat_eq (result.trans (asl_toNat _ _).symm))]
      rfl
    case rla =>
      rintro rfl result
      rw [exec_rla, row.runModify_writes resolves (BitVec.eq_of_toNat_eq (result.trans (rol_toNat _ _).symm))]
      rfl
    case sre =>
      rintro rfl result
      rw [exec_sre, row.runModify_writes resolves (BitVec.eq_of_toNat_eq (result.trans (lsr_toNat _ s.flagC).symm))]
      rfl
    case rra =>
      rintro rfl result
      rw [exec_rra, row.runModify_writes resolves (BitVec.eq_of_toNat_eq (result.trans (ror_toNat _ _).symm))]
      rfl
    case dcp =>
      rintro rfl result
      rw [exec_dcp, row.runModify_writes (g := decrement) resolves result, State.compare_eq_unsigned]
    case isc =>
      rintro rfl result
      rw [exec_isc, row.runModify_writes (g := increment) resolves result]
      rfl

/-! ## Immediate combinations and `LAS` -/

/-- R143: a row of two base cycles with an Immediate operand answers its effect on that byte; the fetch has read it. -/
theorem runRead_imm {i : Instr} {opcode d : Byte} (form : i.form = some ⟨opcode, 2, .never⟩)
    (operand : i.operand = .imm d) (effect : Byte → State → State) (s : State) :
    runRead i effect s = .next { effect d s with cyclesRemaining := 1 } := by
  have hea : (resolve i.operand s).1.ea = some (s.pc - 1) := by rw [operand]; rfl
  rw [runRead_eq form hea, operand]
  rfl

/-- R274: both bytes of `ANC` are rows of the table. -/
theorem form_anc {op : Byte} (h : op = 0x0B ∨ op = 0x2B) (d : Byte) : (Instr.anc op d).form = some ⟨op, 2, .never⟩ := by
  rcases h with rfl | rfl <;> rfl

/-- R211: a right shift clears bit 7. -/
theorem ushiftRight_one_getLsbD_seven (v : Byte) : (v >>> 1).getLsbD 7 = false := by
  rw [BitVec.getLsbD_ushiftRight]
  exact v.getLsbD_of_ge 8 le_rfl

theorem addressedRow_las (w : Word) : AddressedRow (.las w) := ⟨⟨_, rfl⟩, nofun, nofun⟩

/-- R149: an index by `Y` crosses when the sum lies in another page than the base. -/
theorem resolve_aby_crossed_iff (w : Word) (s : State) :
    (resolve (.aby w) s).1.crossed = true ↔ (w.toNat + s.y.toNat) % 65536 / 256 ≠ w.toNat / 256 := by
  rw [← zext16_toNat s.y, ← BitVec.toNat_add]
  exact pageDiffers_iff _ _

/-- R153, R283: `LAS` takes four cycles, five when the index crossed a page. -/
theorem cyclesAfter_las (w : Word) (s : State) :
    cyclesAfter (.las w) s = if (w.toNat + s.y.toNat) % 65536 / 256 = w.toNat / 256 then 3 else 4 := by
  have paid : cyclesAfter (.las w) s = 4 + (if True ∧ (resolve (.aby w) s).1.crossed = true then 1 else 0) - 1 := by
    simp only [cyclesAfter, Instr.form, Instr.operand]
  rw [paid]
  simp only [resolve_aby_crossed_iff, true_and, ne_eq, ite_not]
  split <;> rfl

/-- Settles O50: each Immediate combination is a row of two cycles with its effect on the operand byte; `LAS` is a row
of the read class that pays for a page cross. -/
theorem undocumentedReadResults : Obligations.UndocumentedReadResults := by
  intro s d op w
  refine ⟨?anc, encode_eq (i := .alr d) rfl, ?alr, encode_eq (i := .arr d) rfl, ?arr, encode_eq (i := .axs d) rfl, ?axs,
    encode_eq (i := .las w) rfl, ?las⟩
  case anc =>
    intro which
    have form := form_anc which d
    exact ⟨encode_eq form, by rw [exec_anc, runRead_imm form rfl]; rfl⟩
  case alr =>
    rw [exec_alr, runRead_imm rfl rfl, ← ushiftRight_one_getLsbD_seven (s.a &&& d)]
    rfl
  case arr =>
    refine ⟨arrResult (s.a &&& d) s.flagC, ror_toNat _ _, ?_⟩
    rw [exec_arr, runRead_imm rfl rfl]
    rfl
  case axs =>
    rw [exec_axs, runRead_imm rfl rfl, State.compare_eq_unsigned]
    rfl
  case las =>
    obtain ⟨m, tr, reads, answers⟩ := (addressedRow_las w).runRead_answers _ s
    exact ⟨m, tr, _, reads, rfl, by rw [exec_las, answers, cyclesAfter_las]; rfl⟩

/-! ## High-byte stores -/

theorem exec_ahx (o : Operand) (s : State) :
    exec (.ahx o) s = runStoreHigh (.ahx o) id (fun s1 => s1.a &&& s1.x) s := rfl

theorem exec_shy (w : Word) (s : State) : exec (.shy w) s = runStoreHigh (.shy w) id State.y s := rfl

theorem exec_shx (w : Word) (s : State) : exec (.shx w) s = runStoreHigh (.shx w) id State.x s := rfl

theorem exec_tas (w : Word) (s : State) :
    exec (.tas w) s = runStoreHigh (.tas w) (fun s1 => s1.setSP (s1.a &&& s1.x)) State.sp s := rfl

/-- R279: the address of a high-byte store, from what its operand resolves to. -/
theorem State.highStoreAddress_eq {o : Operand} {s s1 : State} {ea base : Word} {crossed : Bool}
    (resolved : resolve o s = (⟨some ea, some base, crossed⟩, s1)) (v0 : Byte) :
    s.highStoreAddress o v0 = some (if crossed then w16 (hi ea &&& (v0 &&& (hi base + 1))) (lo ea) else ea) := by
  simp only [highStoreAddress, resolved]

/-- R279: a row whose operand has a base changes its registers, then makes the one write of `StoreHi`. -/
theorem runStoreHigh_eq {i : Instr} {f : Form} {s s1 : State} {ea base : Word} {crossed : Bool}
    (form : i.form = some f) (resolved : resolve i.operand s = (⟨some ea, some base, crossed⟩, s1))
    (before : State → State) (value : State → Byte) :
    runStoreHigh i before value s =
      .next ((storeHigh (value (before s1)) base ea crossed (before s1)).charge f crossed 0) := by
  simp only [runStoreHigh, form, resolved]

/-- The instruction is a row of the group of R279 that combines `v0` with the page, with `newSP` as `SP` when it
stores, and has `n` cycles left after the Dispatch tick. -/
structure HighStoreRow (i : Instr) (s : State) (v0 newSP : Byte) (n : Nat) : Prop where
  form : ∃ opcode, i.form = some ⟨opcode, n + 1, .never⟩
  register : highStoreValue s i = some v0
  resolved : ∃ ea base crossed tr, resolve i.operand s = (⟨some ea, some base, crossed⟩, { s with trace := tr })
  runs : ∃ before value, exec i s = runStoreHigh i before value s ∧
    (∀ tr, before { s with trace := tr } = { s with sp := newSP, trace := tr }) ∧
    ∀ tr, value { s with sp := newSP, trace := tr } = v0

theorem highStoreRow_ahx_aby (w : Word) (s : State) : HighStoreRow (.ahx (.aby w)) s (s.a &&& s.x) s.sp 4 :=
  ⟨⟨_, rfl⟩, rfl, ⟨_, _, _, _, rfl⟩, _, _, exec_ahx _ s, fun _ => rfl, fun _ => rfl⟩

theorem highStoreRow_ahx_izy (d : Byte) (s : State) : HighStoreRow (.ahx (.izy d)) s (s.a &&& s.x) s.sp 5 :=
  ⟨⟨_, rfl⟩, rfl, ⟨_, _, _, _, rfl⟩, _, _, exec_ahx _ s, fun _ => rfl, fun _ => rfl⟩

theorem highStoreRow_shy (w : Word) (s : State) : HighStoreRow (.shy w) s s.y s.sp 4 :=
  ⟨⟨_, rfl⟩, rfl, ⟨_, _, _, _, rfl⟩, _, _, exec_shy w s, fun _ => rfl, fun _ => rfl⟩

theorem highStoreRow_shx (w : Word) (s : State) : HighStoreRow (.shx w) s s.x s.sp 4 :=
  ⟨⟨_, rfl⟩, rfl, ⟨_, _, _, _, rfl⟩, _, _, exec_shx w s, fun _ => rfl, fun _ => rfl⟩

/-- R282: `TAS` stores the `SP` it has just set. -/
theorem highStoreRow_tas (w : Word) (s : State) : HighStoreRow (.tas w) s (s.a &&& s.x) (s.a &&& s.x) 4 :=
  ⟨⟨_, rfl⟩, rfl, ⟨_, _, _, _, rfl⟩, _, _, exec_tas w s, fun _ => rfl, fun _ => rfl⟩

/-- Settles O53: the forms mode by mode; each instruction is a row of the group, whose one write is that of
`StoreHi`. -/
theorem highByteStoreResults : Obligations.HighByteStoreResults := by
  refine ⟨?ahxForms, fun w => ⟨encode_eq (i := .shy w) rfl, encode_eq (i := .shx w) rfl, encode_eq (i := .tas w) rfl⟩,
    ?stores⟩
  case ahxForms =>
    intro o
    cases o <;> rfl
  case stores =>
    intro i s v0 newSP n which
    have row : HighStoreRow i s v0 newSP n := by
      rcases which with ⟨⟨w, rfl⟩, rfl, rfl, rfl⟩ | ⟨⟨d, rfl⟩, rfl, rfl, rfl⟩ | ⟨⟨w, rfl⟩, rfl, rfl, rfl⟩ |
        ⟨⟨w, rfl⟩, rfl, rfl, rfl⟩ | ⟨⟨w, rfl⟩, rfl, rfl, rfl⟩
      · exact highStoreRow_ahx_aby w s
      · exact highStoreRow_ahx_izy d s
      · exact highStoreRow_shy w s
      · exact highStoreRow_shx w s
      · exact highStoreRow_tas w s
    obtain ⟨opcode, form⟩ := row.form
    obtain ⟨ea, base, crossed, tr, resolved⟩ := row.resolved
    obtain ⟨before, value, run, registers, stored⟩ := row.runs
    refine ⟨row.register, ea, base, _, crossed, _, tr, resolved, rfl, rfl, State.highStoreAddress_eq resolved v0, ?_⟩
    rw [run, runStoreHigh_eq form resolved, registers, stored, storeHigh_eq, State.busWrite_eq]
    rfl

end Sys2Proof.Machine
end

section
/-! Interrupts (R307, R308, R310, R314): the state an entry leaves, what taking an NMI or an IRQ makes of it, and when an
IRQ is due. -/

namespace Sys2Proof.Machine

namespace State

/-- R310: the entry is its three pushes, at the addresses below `SP`, and the two vector reads. -/
theorem interruptEntry_eq_afterEntry (vector : Word) (b : Bool) (s : State) :
    s.interruptEntry vector b = s.afterEntry vector s.pc b := by
  have second : s.sp - 2 = s.sp - 1 - 1 := by bv_omega
  have third : s.sp - 3 = s.sp - 1 - 1 - 1 := by bv_omega
  simp only [interruptEntry, afterEntry, second, third, read16, readPair, busRead_eq, push_eq, busWrite_eq, stackAddr,
    setI, setPC]
  rfl

/-- R307. -/
theorem takeNmi_eq (s : State) :
    s.takeNmi = { s.afterEntry 0xFFFA s.pc false with nmiPending := false, cyclesRemaining := 6 } := by
  rw [takeNmi, interruptEntry_eq_afterEntry]
  rfl

/-- R308. -/
theorem takeIrq_eq (s : State) :
    s.takeIrq = { s.afterEntry 0xFFFE s.pc false with irqPending := false, cyclesRemaining := 6 } := by
  rw [takeIrq, interruptEntry_eq_afterEntry]
  rfl

@[simp] theorem takeNmi_fault (s : State) : s.takeNmi.fault = s.fault := by
  simp only [takeNmi, setCycles_fault, interruptEntry_fault]

@[simp] theorem takeIrq_fault (s : State) : s.takeIrq.fault = s.fault := by
  simp only [takeIrq, setCycles_fault, interruptEntry_fault]

@[simp] theorem takeNmi_nmiPending (s : State) : s.takeNmi.nmiPending = false := by
  simp only [takeNmi, setCycles_nmiPending, interruptEntry_nmiPending]

/-- R307: an NMI leaves the IRQ latch. -/
@[simp] theorem takeNmi_irqPending (s : State) : s.takeNmi.irqPending = s.irqPending := by
  simp only [takeNmi, setCycles_irqPending, interruptEntry_irqPending]

@[simp] theorem takeNmi_flagI (s : State) : s.takeNmi.flagI = true := by
  simp only [takeNmi, setCycles_flagI, interruptEntry_flagI]

/-- R121: at a Dispatch tick with no NMI, a latched IRQ is taken exactly when `I` is clear. -/
theorem nextAction_of_irqPending {s : State} (running : s.fault = none) (done : s.cyclesRemaining = 0)
    (nmi : s.nmiPending = false) (irq : s.irqPending = true) :
    s.nextAction = if s.flagI then .instruction else .irq := by
  cases enabled : s.flagI <;> simp [nextAction, running, done, nmi, irq, enabled]

end State

/-- Settles O6: the entry is the written-out one, both interrupts run it, and the NMI's entry, which leaves the IRQ
latch, sets the `I` that decides when the IRQ is due. -/
theorem interruptsAreTakenAtDispatch : Obligations.InterruptsAreTakenAtDispatch := by
  refine ⟨fun s vector b => s.interruptEntry_eq_afterEntry vector b, ?nmi, ?irq, ?both⟩
  case nmi =>
    intro s running done nmi
    rw [step_nmi running done nmi, State.takeNmi_eq]
  case irq =>
    intro s running done nmi irq enabled
    rw [step_irq running done nmi irq enabled, State.takeIrq_eq]
  case both =>
    intro s running done nmi irq
    have latched : s.takeNmi.irqPending = true := s.takeNmi_irqPending.trans irq
    have unfaulted : s.takeNmi.fault = none := s.takeNmi_fault.trans running
    refine ⟨s.takeNmi, step_nmi running done nmi, latched, s.takeNmi_nmiPending, s.takeNmi_flagI, ?masked, ?due⟩
    case masked =>
      exact (State.nextAction_of_irqPending (s := { s.takeNmi with cyclesRemaining := 0 }) unfaulted rfl
        s.takeNmi_nmiPending latched).trans (if_pos s.takeNmi_flagI)
    case due =>
      exact State.nextAction_of_irqPending (s := { s.takeNmi with cyclesRemaining := 0, flagI := false }) unfaulted rfl
        s.takeNmi_nmiPending latched

end Sys2Proof.Machine
end

section
/-! What the rows of the opcode table have in common (R93, R95): the instruction a row makes of its operand bytes has the
row's opcode byte, base cycles and penalty by its own rule, and the fetch answers such an instruction. -/

namespace Sys2Proof

/-- The instruction a row makes at the opcode byte `op`; `w` holds the operand bytes, as many as the row takes. -/
def Row.instr (r : Row) (op : Byte) (w : Word) : Instr :=
  match r.shape with
  | .invalid => .invalid op
  | .f1 i => i
  | .f2 make => make (lo w)
  | .f3 make => make w

set_option maxRecDepth 2000 in
/-- The table of R95 against each instruction's own rule, row by row; all 256 rows at once, hence the depth. -/
theorem opcodeTable_form (w : Word) :
    opcodeTable.zipIdx.map (fun p => (p.1.instr (BitVec.ofNat 8 p.2) w).form) =
      opcodeTable.zipIdx.map (fun p => some ⟨BitVec.ofNat 8 p.2, p.1.cycles, p.1.penalty⟩) := rfl

/-- R95: what the row at an opcode byte makes is encoded with that byte, and takes the row's cycles. -/
theorem opcodeRow_form (op : Byte) (w : Word) :
    ((opcodeRow op).instr op w).form = some ⟨op, (opcodeRow op).cycles, (opcodeRow op).penalty⟩ := by
  have row := congrArg (·[op.toNat]?) (opcodeTable_form w)
  simpa [List.getElem?_zipIdx, Laws.opcodeRow_eq] using row

namespace Machine

/-- R124: the fetch answers what the row at the opcode byte makes of some operand bytes. -/
theorem fetch_instr (s : State) : ∃ w, (fetch s).1 = (opcodeRow (s.peek s.pc)).instr (s.peek s.pc) w := by
  simp only [fetch, Row.instr, State.busRead_eq]
  cases (opcodeRow (s.peek s.pc)).shape with
  | invalid => exact ⟨0, rfl⟩
  | f1 i => exact ⟨0, rfl⟩
  | f2 make => exact ⟨w16 0 _, congrArg make (lo_w16 0 _).symm⟩
  | f3 make => exact ⟨_, rfl⟩

/-- R98, R124: what the fetch answers is a row of the table, at the byte the fetch read first. -/
theorem fetch_form (s : State) :
    (fetch s).1.form =
      some ⟨s.peek s.pc, (opcodeRow (s.peek s.pc)).cycles, (opcodeRow (s.peek s.pc)).penalty⟩ := by
  obtain ⟨w, made⟩ := fetch_instr s
  rw [made, opcodeRow_form]

@[simp] theorem fetch_fault (s : State) : (fetch s).2.fault = s.fault := by
  rw [fetch_frame]

/-- R97: the sentinel has a form for the twelve bytes only, and its opcode byte is the one it carries. -/
theorem invalid_of_form {op : Byte} {f : Form} (form : (Instr.invalid op).form = some f) :
    op ∈ invalidOpcodes ∧ f.opcode = op := by
  by_cases h : op ∈ invalidOpcodes
  · rw [form_invalid h] at form
    cases form
    exact ⟨h, rfl⟩
  · cases (if_neg h).symm.trans form

/-- R97: the fetch answers the sentinel at an `INVALID` byte only. -/
theorem fetch_ne_invalid {s : State} (h : s.peek s.pc ∉ invalidOpcodes) (op : Byte) : (fetch s).1 ≠ .invalid op := by
  intro sentinel
  obtain ⟨listed, rfl⟩ := invalid_of_form (sentinel ▸ fetch_form s)
  exact h listed

end Machine

end Sys2Proof
end

section
/-! No instruction but the sentinel touches the fault latch, and every row answers a next state (R304): one lemma for
each shape of execution, then the instructions by their shape. -/

namespace Sys2Proof.Machine

/-- The outcome is a next state whose fault latch is that of `s`. -/
def KeepsFault (s : State) (r : Result) : Prop := ∃ t, r = .next t ∧ t.fault = s.fault

theorem runImplied_keepsFault {i : Instr} {f : Form} (form : i.form = some f) {effect : State → State} {s : State}
    (keeps : (effect s).fault = s.fault) : KeepsFault s (runImplied i effect s) :=
  ⟨_, runImplied_eq form effect s, keeps⟩

theorem runAddressed_keepsFault {i : Instr} {f : Form} (form : i.form = some f) (imp : i.operand ≠ .imp)
    (acc : i.operand ≠ .acc) {effect : Word → Resolved → State → State} {s : State}
    (keeps : ∀ ea r s1, (effect ea r s1).fault = s1.fault) : KeepsFault s (runAddressed i effect s) := by
  obtain ⟨ea, hea⟩ := resolve_ea_some imp acc s
  refine ⟨_, runAddressed_eq form hea effect, ?_⟩
  rw [State.charge_fault, keeps, resolve_frame]

theorem runRead_keepsFault {i : Instr} {f : Form} (form : i.form = some f) (imp : i.operand ≠ .imp)
    (acc : i.operand ≠ .acc) {effect : Byte → State → State} {s : State}
    (keeps : ∀ m s1, (effect m s1).fault = s1.fault) : KeepsFault s (runRead i effect s) :=
  runAddressed_keepsFault form imp acc fun ea _ s1 => by rw [keeps, readOperand_frame]

theorem runStore_keepsFault {i : Instr} {f : Form} (form : i.form = some f) (imp : i.operand ≠ .imp)
    (acc : i.operand ≠ .acc) (value : State → Byte) (s : State) : KeepsFault s (runStore i value s) :=
  runAddressed_keepsFault form imp acc fun ea _ s1 => s1.busWrite_fault ea (value s1)

theorem runModify_keepsFault {i : Instr} {f : Form} (form : i.form = some f) (imp : i.operand ≠ .imp)
    (acc : i.operand ≠ .acc) {g : Byte → Bool → Byte × Bool} {effect : Byte → State → State} {s : State}
    (keeps : ∀ r s1, (effect r s1).fault = s1.fault) : KeepsFault s (runModify i g effect s) :=
  runAddressed_keepsFault form imp acc fun ea _ s1 => by rw [keeps, State.readModifyWrite_fault]

theorem runShift_keepsFault {i : Instr} {f : Form} (form : i.form = some f) (imp : i.operand ≠ .imp)
    (g : Byte → Bool → Byte × Bool) (s : State) : KeepsFault s (runShift i g s) := by
  by_cases acc : i.operand = .acc
  · rw [runShift_acc acc]
    exact runImplied_keepsFault form rfl
  · rw [runShift_memory acc]
    exact runModify_keepsFault form imp acc State.setZN_fault

theorem runBranch_keepsFault {i : Instr} {f : Form} (form : i.form = some f) (d : Byte) (cond : Bool) (s : State) :
    KeepsFault s (runBranch i d cond s) := by
  rw [runBranch_eq form]
  cases cond <;> exact ⟨_, rfl, rfl⟩

theorem runStoreHigh_keepsFault {i : Instr} {f : Form} {ea base : Word} {crossed : Bool} {s s1 : State}
    (form : i.form = some f) (resolved : resolve i.operand s = (⟨some ea, some base, crossed⟩, s1))
    {before : State → State} {value : State → Byte} (keeps : (before s1).fault = s.fault) :
    KeepsFault s (runStoreHigh i before value s) :=
  ⟨_, runStoreHigh_eq form resolved before value, keeps⟩

theorem exec_brk (s : State) :
    exec .brk s = runImplied .brk (fun s1 => (s1.setPC (s1.pc + 1)).interruptEntry vecIrq true) s := rfl

theorem exec_rti (s : State) : exec .rti s = runImplied .rti State.interruptReturn s := rfl

/-- R284: without operand bytes nothing is read. -/
theorem exec_nopU_imp (op : Byte) (s : State) :
    exec (.nopU op .imp) s = runImplied (.nopU op .imp) id s := rfl

/-- R284: the operand byte is read and discarded. -/
theorem exec_nopU {o : Operand} (imp : o ≠ .imp) (op : Byte) (s : State) :
    exec (.nopU op o) s = runRead (.nopU op o) (fun _ s1 => s1) s := by
  cases o
  case imp => exact absurd rfl imp
  all_goals rfl

/-- R98, R304: a row of the table other than the sentinel answers a next state and leaves the fault latch. -/
theorem exec_keepsFault {i : Instr} {f : Form} (form : i.form = some f) (sentinel : ∀ op, i ≠ .invalid op)
    (s : State) : KeepsFault s (exec i s) := by
  cases i
  case tax | tay | txa | tya | tsx | txs | inx | iny | dex | dey | rts | pha | php | pla | plp | clc | sec | cli | sei
      | clv | cld | sed | nop =>
    simp only [exec_tax, exec_tay, exec_txa, exec_tya, exec_tsx, exec_txs, exec_inx, exec_iny, exec_dex, exec_dey,
      exec_rts, exec_pha, exec_php, exec_pla, exec_plp, exec_clc, exec_sec, exec_cli, exec_sei, exec_clv, exec_cld,
      exec_sed, exec_nop]
    exact runImplied_keepsFault form rfl
  case brk =>
    rw [exec_brk]
    exact runImplied_keepsFault form (State.interruptEntry_fault vecIrq true (s.setPC (s.pc + 1)))
  case rti =>
    rw [exec_rti]
    exact runImplied_keepsFault form s.interruptReturn_fault
  case bpl | bmi | bvc | bvs | bcc | bcs | bne | beq =>
    simp only [exec_bpl, exec_bmi, exec_bvc, exec_bvs, exec_bcc, exec_bcs, exec_bne, exec_beq]
    exact runBranch_keepsFault form _ _ s
  case lda | ldx | ldy | ora | and | eor | adc | sbc | cmp | cpx | cpy | bit | lax =>
    simp only [exec_lda, exec_ldx, exec_ldy, exec_ora, exec_and, exec_eor, exec_adc, exec_sbc, exec_cmp, exec_cpx,
      exec_cpy, exec_bit, exec_lax]
    exact runRead_keepsFault form (by rintro ⟨⟩; cases form) (by rintro ⟨⟩; cases form) fun _ _ => rfl
  case laxImm | las | anc | alr | arr | xaa | axs | sbcU =>
    simp only [exec_laxImm, exec_las, exec_anc, exec_alr, exec_arr, exec_xaa, exec_axs, exec_sbcU]
    exact runRead_keepsFault form nofun nofun fun _ _ => rfl
  case nopU op o =>
    by_cases imp : o = .imp
    · rw [imp, exec_nopU_imp]
      exact runImplied_keepsFault (imp ▸ form) rfl
    · rw [exec_nopU imp]
      exact runRead_keepsFault form imp (by rintro ⟨⟩; cases form) fun _ _ => rfl
  case inc | dec | slo | rla | sre | rra | dcp | isc =>
    simp only [exec_inc, exec_dec, exec_slo, exec_rla, exec_sre, exec_rra, exec_dcp, exec_isc]
    exact runModify_keepsFault form (by rintro ⟨⟩; cases form) (by rintro ⟨⟩; cases form) fun _ _ => rfl
  case asl | lsr | rol | ror =>
    simp only [exec_asl, exec_lsr, exec_rol, exec_ror]
    exact runShift_keepsFault form (by rintro ⟨⟩; cases form) _ s
  case sta | stx | sty | sax =>
    simp only [exec_sta, exec_stx, exec_sty, exec_sax]
    exact runStore_keepsFault form (by rintro ⟨⟩; cases form) (by rintro ⟨⟩; cases form) _ s
  case jmp =>
    rw [exec_jmp]
    exact runAddressed_keepsFault form (by rintro ⟨⟩; cases form) (by rintro ⟨⟩; cases form) fun _ _ _ => rfl
  case jsr =>
    rw [exec_jsr]
    exact runAddressed_keepsFault form nofun nofun fun _ _ _ => rfl
  case shy | shx | tas =>
    simp only [exec_shy, exec_shx, exec_tas]
    exact runStoreHigh_keepsFault form rfl rfl
  case ahx o =>
    rw [exec_ahx]
    cases o
    case aby | izy => exact runStoreHigh_keepsFault form rfl rfl
    all_goals cases form
  case invalid op => exact absurd rfl (sentinel op)

/-- Settles O9: the five cases of a tick; in an instruction step the byte at `PC` is `INVALID`, or what the fetch answers
is another row of the table. -/
theorem everyStepAnswersANextState : Obligations.EveryStepAnswersANextState := by
  intro s
  rcases step_cases s with ⟨-, halted⟩ | ⟨-, -, idle⟩ | ⟨-, -, -, nmi⟩ | ⟨-, -, -, -, -, irq⟩ | ⟨at_, instruction⟩
  · exact ⟨s, halted, .inl rfl⟩
  · exact ⟨_, idle, .inl s.idleTick_fault⟩
  · exact ⟨_, nmi, .inl s.takeNmi_fault⟩
  · exact ⟨_, irq, .inl s.takeIrq_fault⟩
  · by_cases invalid : s.peek s.pc ∈ invalidOpcodes
    · exact ⟨_, step_invalid at_ invalid, .inr ⟨at_, invalid⟩⟩
    · obtain ⟨t, answers, keeps⟩ := exec_keepsFault (fetch_form s) (fetch_ne_invalid invalid) (fetch s).2
      exact ⟨t, instruction.trans answers, .inl (keeps.trans (fetch_fault s))⟩

end Sys2Proof.Machine
end

section
/-! `Reset` (R330) in its two parts: the values it gives, then the two reads of the vector. The status images of R33
depend on the flags alone, so those of `State.reset` are those of every reset. -/

namespace Sys2Proof.Machine

namespace State

/-- The state in which `Reset` reads the vector: all at its reset value but `PC`. -/
def resetValues (s : State) : State :=
  { State.reset with pc := s.pc, mem := s.mem, busMap := s.busMap, trace := s.trace }

theorem resetEvent_eq_setPC (s : State) :
    s.resetEvent = (s.resetValues.readPair 0xFFFC 0xFFFD).2.setPC (s.resetValues.readPair 0xFFFC 0xFFFD).1 := rfl

@[simp] theorem resetEvent_pByte (s : State) (b : Bool) : s.resetEvent.pByte b = State.reset.pByte b := rfl

/-- R330: the status byte of R33 after `Reset`, with bit 4 clear and with bit 4 set. -/
theorem reset_pByte : State.reset.pByte false = 0x24 ∧ State.reset.pByte true = 0x34 := by decide

end State

/-- Settles O1: a read does not look at what `Reset` has set by then, so the vector bytes are those of `s`. -/
theorem resetEventGivesResetValues : Obligations.ResetEventGivesResetValues := by
  intro s
  obtain ⟨l, h, low, high, reads⟩ := s.resetValues.readPair_eq 0xFFFC 0xFFFD
  refine ⟨l, h, ?low, ?high, ?event, ?images⟩
  case low => exact low.trans (State.peek_congr rfl rfl rfl _)
  case high => exact high.trans (State.peek_congr rfl rfl rfl _)
  case event =>
    rw [State.resetEvent_eq_setPC, reads]
    rfl
  case images =>
    rw [s.resetEvent_pByte, s.resetEvent_pByte]
    exact State.reset_pByte

end Sys2Proof.Machine
end

section
/-! The decoder and the encoder (R90 to R95, R98) by way of the rows of the opcode table: decoding goes from the row at
the opcode byte to the instruction, and a form goes back from the instruction to its row. -/

namespace Sys2Proof

open Machine (lo_w16 hi_w16 w16_hi_lo encode_eq invalid_of_form)

/-- The operand bytes of a row, the low byte of `w` first: as many as the row's shape takes. -/
def Shape.operand (sh : Shape) (w : Word) : List Byte :=
  match sh with
  | .invalid | .f1 _ => []
  | .f2 _ => [lo w]
  | .f3 _ => [lo w, hi w]

/-! ## From the bytes to the row -/

/-- R93: the opcode byte alone decides the row, which takes its operand bytes and leaves the rest. -/
theorem decode_row (op : Byte) (w : Word) (rest : List Byte) :
    decode (op :: ((opcodeRow op).shape.operand w ++ rest)) = .ok ((opcodeRow op).instr op w, rest) := by
  cases h : (opcodeRow op).shape <;> simp [decode, Shape.operand, Row.instr, h, w16_hi_lo]

/-- What the decoder accepts is an opcode byte and the operand bytes of its row. -/
theorem decode_ok {bytes rest : List Byte} {i : Instr} (h : decode bytes = .ok (i, rest)) :
    ∃ op w, i = (opcodeRow op).instr op w ∧ bytes = op :: ((opcodeRow op).shape.operand w ++ rest) := by
  rcases bytes with _ | ⟨op, tail⟩
  · cases h
  · cases shape : (opcodeRow op).shape with
    | invalid | f1 j =>
      simp only [decode, shape] at h
      cases h
      exact ⟨op, 0, by simp only [Row.instr, shape], by simp only [Shape.operand, shape, List.nil_append]⟩
    | f2 make =>
      rcases tail with _ | ⟨b, tail⟩ <;> simp only [decode, shape] at h <;> cases h
      exact ⟨op, w16 0 b, by simp only [Row.instr, shape, lo_w16],
        by simp only [Shape.operand, shape, lo_w16, List.cons_append, List.nil_append]⟩
    | f3 make =>
      rcases tail with _ | ⟨b1, _ | ⟨b2, tail⟩⟩ <;> simp only [decode, shape] at h <;> cases h
      exact ⟨op, w16 b2 b1, by simp only [Row.instr, shape],
        by simp only [Shape.operand, shape, lo_w16, hi_w16, List.cons_append, List.nil_append]⟩

/-- R90: a row takes at most two operand bytes. -/
theorem Shape.operand_prefix (sh : Shape) (b1 b2 : Byte) :
    ∃ rest, [b1, b2] = sh.operand (w16 b2 b1) ++ rest := by
  cases sh
  case invalid | f1 => exact ⟨[b1, b2], rfl⟩
  case f2 => exact ⟨[b2], by rw [Shape.operand, lo_w16]; rfl⟩
  case f3 => exact ⟨[], by rw [Shape.operand, lo_w16, hi_w16]; rfl⟩

set_option maxRecDepth 2000 in
/-- R91, R95: the instruction each row makes has the operand bytes its row takes, and no more. -/
theorem opcodeTable_operand (op : Byte) (w : Word) :
    opcodeTable.map (fun r => (r.instr op w).operand.bytes) = opcodeTable.map (fun r => r.shape.operand w) := rfl

/-! ## From the instruction to its row -/

/-- The operand field is (the low byte of) `w`. -/
def Operand.Field (o : Operand) (w : Word) : Prop :=
  match o with
  | .imp | .acc => True
  | .imm d | .zp d | .zpx d | .zpy d | .rel d | .izx d | .izy d => lo w = d
  | .abs v | .abx v | .aby v | .ind v => w = v

theorem Operand.exists_field (o : Operand) : ∃ w, o.Field w := by
  cases o
  case imp | acc => exact ⟨0, trivial⟩
  case abs v | abx v | aby v | ind v => exact ⟨v, rfl⟩
  all_goals exact ⟨_, lo_w16 0 _⟩

/-- R284: an undocumented `NOP` has a form at the bytes of its mode only. -/
theorem nopU_of_form {op : Byte} {o : Operand} {f : Form} (form : (Instr.nopU op o).form = some f) :
    op ∈ nopOpcodes o.mode ∧ f = ⟨op, (nopTiming o.mode).1, (nopTiming o.mode).2⟩ := by
  by_cases h : op ∈ nopOpcodes o.mode
  · exact ⟨h, Option.some.inj (form.symm.trans (if_pos h))⟩
  · cases form.symm.trans (if_neg h)

/-- R274: `ANC` has a form at its two bytes only. -/
theorem anc_of_form {op d : Byte} {f : Form} (form : (Instr.anc op d).form = some f) :
    op ∈ ([0x0B, 0x2B] : List Byte) ∧ f = ⟨op, 2, .never⟩ := by
  by_cases h : op ∈ ([0x0B, 0x2B] : List Byte)
  · exact ⟨h, Option.some.inj (form.symm.trans (if_pos h))⟩
  · cases form.symm.trans (if_neg h)

/-- R95: the row at an instruction's own opcode byte makes that instruction of its operand field. -/
theorem instr_of_form {i : Instr} {f : Form} {w : Word} (form : i.form = some f) (field : i.operand.Field w) :
    (opcodeRow f.opcode).instr f.opcode w = i := by
  revert form field
  cases i
  case lda o | ldx o | ldy o | sta o | stx o | sty o | ora o | and o | eor o | adc o | sbc o | cmp o | cpx o | cpy o
      | bit o | asl o | lsr o | rol o | ror o | inc o | dec o | jmp o | slo o | rla o | sre o | rra o | dcp o | isc o
      | sax o | lax o | ahx o =>
    cases o <;> rintro ⟨⟩ ⟨⟩ <;> exact rfl
  case anc op d =>
    rintro form ⟨⟩
    obtain ⟨listed, rfl⟩ := anc_of_form form
    fin_cases listed <;> rfl
  case nopU op o =>
    intro form field
    obtain ⟨listed, rfl⟩ := nopU_of_form form
    cases o <;> cases field <;> fin_cases listed <;> rfl
  case invalid op =>
    intro form field
    obtain ⟨listed, same⟩ := invalid_of_form form
    rw [same]
    fin_cases listed <;> rfl
  all_goals rintro ⟨⟩ ⟨⟩; exact rfl

/-! ## Well-formed terms -/

/-- R98: an instruction's own rule gives it a form exactly when it is a row of the table. -/
theorem wellFormed_eq_isSome (i : Instr) : i.wellFormed = i.form.isSome := by
  cases i
  case anc op d => exact (Laws.FormMatches.anc op d).1
  case nopU op o => exact (Laws.FormMatches.nopU op o).1
  case invalid op => exact (Laws.FormMatches.invalid op).1
  case lda o | ldx o | ldy o | sta o | stx o | sty o | ora o | and o | eor o | adc o | sbc o | cmp o | cpx o | cpy o
      | bit o | asl o | lsr o | rol o | ror o | inc o | dec o | jmp o | slo o | rla o | sre o | rra o | dcp o | isc o
      | sax o | lax o | ahx o =>
    cases o <;> rfl
  all_goals rfl

theorem wellFormed_iff {i : Instr} : i.WellFormed ↔ ∃ f, i.form = some f := by
  rw [Instr.WellFormed, wellFormed_eq_isSome, Option.isSome_iff_exists]

theorem not_wellFormed_iff {i : Instr} : ¬ i.WellFormed ↔ i.form = none := by
  rw [Instr.WellFormed, wellFormed_eq_isSome, Bool.not_eq_true, Option.isSome_eq_false_iff, Option.isNone_iff_eq_none]

theorem row_wellFormed (op : Byte) (w : Word) : ((opcodeRow op).instr op w).WellFormed :=
  wellFormed_iff.mpr ⟨_, opcodeRow_form op w⟩

/-! ## Encoding -/

/-- R91, R95: the instruction a row makes has the operand bytes its row takes, and no more. -/
theorem opcodeRow_operand (op : Byte) (w : Word) :
    ((opcodeRow op).instr op w).operand.bytes = (opcodeRow op).shape.operand w := by
  have row := congrArg (·[op.toNat]?) (opcodeTable_operand op w)
  simpa [Laws.opcodeRow_eq] using row

/-- R92: a row's instruction is its opcode byte and its operand bytes. -/
theorem encode_row (op : Byte) (w : Word) :
    encode ((opcodeRow op).instr op w) = op :: (opcodeRow op).shape.operand w := by
  rw [encode_eq (opcodeRow_form op w), opcodeRow_operand]

/-- Settles O15: a well-formed instruction is what the row at its own opcode byte makes of its operand field, and the
decoder undoes a row. -/
theorem decodeOfEncodeIsTheInstruction : Obligations.DecodeOfEncodeIsTheInstruction := by
  intro i rest wf
  obtain ⟨f, form⟩ := wellFormed_iff.mp wf
  obtain ⟨w, field⟩ := i.operand.exists_field
  rw [← instr_of_form form field, encode_row]
  exact decode_row f.opcode w rest

/-- Settles O16: what is decoded is made by a row, which is well-formed and encodes to the bytes the row takes; and no
row takes more than two operand bytes. -/
theorem encodeOfDecodeIsTheBytes : Obligations.EncodeOfDecodeIsTheBytes := by
  refine ⟨?bytes, ?total⟩
  case bytes =>
    intro bytes rest i decoded
    obtain ⟨op, w, rfl, rfl⟩ := decode_ok decoded
    exact ⟨row_wellFormed op w, by rw [encode_row, List.cons_append]⟩
  case total =>
    intro op b1 b2
    obtain ⟨rest, three⟩ := (opcodeRow op).shape.operand_prefix b1 b2
    exact ⟨_, rest, three ▸ decode_row op (w16 b2 b1) rest⟩

end Sys2Proof
end

section
/-! The fetch (R64, R124) against the decoder: the row at the first byte says how many bytes are read and how far `PC`
moves, and decoding the bytes at `PC` goes by the same row. -/

namespace Sys2Proof

/-- By how much fetching an instruction of the shape advances `PC` (R22, R128). -/
def Shape.fetchLength : Shape → Nat
  | .invalid => 0
  | .f1 _ => 1
  | .f2 _ => 2
  | .f3 _ => 3

set_option maxRecDepth 2000 in
theorem opcodeTable_fetchLength (op : Byte) (w : Word) :
    opcodeTable.map (fun r => (r.instr op w).fetchLength) = opcodeTable.map (fun r => r.shape.fetchLength) := rfl

/-- R22, R90, R128: the length of the instruction a row makes is its row's. -/
theorem opcodeRow_fetchLength (op : Byte) (w : Word) :
    ((opcodeRow op).instr op w).fetchLength = (opcodeRow op).shape.fetchLength := by
  have row := congrArg (·[op.toNat]?) (opcodeTable_fetchLength op w)
  simpa [Laws.opcodeRow_eq] using row

namespace Machine

/-- R124: the fetch answers the instruction that the row at the first byte makes of the next two, with `PC` past its
bytes, which are what has been read. -/
theorem fetch_eq (s : State) : ∃ op b1 b2 i, s.codeBytes = [op, b1, b2] ∧ i = (opcodeRow op).instr op (w16 b2 b1) ∧
    fetch s =
      (i, { s with pc := s.pc + BitVec.ofNat 16 i.fetchLength, trace := readTrace s.pc (encode i) s.trace }) := by
  refine ⟨_, _, _, _, rfl, rfl, ?_⟩
  have second : s.pc + 1 + 1 = s.pc + 2 := BitVec.add_assoc ..
  rw [opcodeRow_fetchLength, encode_row]
  cases shape : (opcodeRow (s.busRead s.pc).1).shape with
  | invalid =>
    simp only [fetch, shape, Row.instr, Shape.fetchLength, Shape.operand, BitVec.add_zero]
    rfl
  | f1 j =>
    simp only [fetch, shape, Row.instr, Shape.fetchLength, Shape.operand]
    rfl
  | f2 make =>
    simp only [fetch, shape, Row.instr, Shape.fetchLength, Shape.operand, lo_w16]
    rfl
  | f3 make =>
    simp only [fetch, shape, Row.instr, Shape.fetchLength, Shape.operand, lo_w16, hi_w16, readTrace, second]
    rfl

/-- Settles O7: the three bytes at `PC` are the operand bytes of the row at the first, and bytes after it, so they
decode to what the fetch answers. -/
theorem stepRunsTheDecodedInstruction : Obligations.StepRunsTheDecodedInstruction := by
  intro s at_
  obtain ⟨op, b1, b2, i, code, made, fetched⟩ := fetch_eq s
  obtain ⟨rest, three⟩ := (opcodeRow op).shape.operand_prefix b1 b2
  have decoded : decode s.codeBytes = .ok (i, rest) := by
    rw [code, three, made, decode_row]
  refine ⟨⟨i, rest, decoded, made ▸ row_wellFormed op _⟩, ?step⟩
  case step =>
    intro j rest' decoded'
    cases decoded'.symm.trans decoded
    rw [step_instruction at_, fetched]

end Machine

end Sys2Proof
end

section
/-! The contents as data (R60, R62): canonical memories that read the same are the same list, and what a write leaves
to be read. -/

namespace Sys2Proof.Machine

namespace Memory

theorem read_head (k : Nat) (v : Byte) (rest : Memory) : read ((k, v) :: rest) k = v := if_pos rfl

/-- Below the least listed address nothing is listed. -/
theorem le_of_read_ne {m : Memory} {least a : Nat} (h : wfFrom least m = true) (listed : m.read a ≠ unlisted) :
    least ≤ a :=
  Nat.le_of_not_lt fun below => listed (read_below h below)

/-- The tail of a canonical memory, read off the whole. -/
theorem read_tail {k : Nat} {v : Byte} {rest : Memory} (h : wfFrom (k + 1) rest = true) (a : Nat) :
    rest.read a = if a = k then unlisted else read ((k, v) :: rest) a := by
  split
  case isTrue same => exact read_below h (by omega)
  case isFalse other => exact (if_neg (Ne.symm other)).symm

/-- Canonical memories that read the same everywhere are the same list. -/
theorem eq_of_read_eq {m n : Memory} {least : Nat} (hm : wfFrom least m = true) (hn : wfFrom least n = true)
    (same : ∀ a, m.read a = n.read a) : m = n := by
  induction m generalizing n least with
  | nil =>
    cases n with
    | nil => rfl
    | cons c tail =>
      obtain ⟨-, -, listed, -⟩ := wfFrom_cons.mp hn
      exact absurd ((read_head ..).symm.trans (same c.1).symm) listed
  | cons c rest ih =>
    obtain ⟨k, v⟩ := c
    obtain ⟨-, bound, listed, hrest⟩ := wfFrom_cons.mp hm
    have head : n.read k = v := (same k).symm.trans (read_head ..)
    cases n with
    | nil => exact absurd head.symm listed
    | cons d tail =>
      obtain ⟨k', v'⟩ := d
      obtain ⟨-, bound', listed', htail⟩ := wfFrom_cons.mp hn
      have head' : read ((k, v) :: rest) k' = v' := (same k').trans (read_head ..)
      have le : k' ≤ k :=
        le_of_read_ne (wfFrom_cons.mpr ⟨le_rfl, bound', listed', htail⟩) (head.trans_ne listed)
      have ge : k ≤ k' :=
        le_of_read_ne (wfFrom_cons.mpr ⟨le_rfl, bound, listed, hrest⟩) (head'.trans_ne listed')
      obtain rfl := le.antisymm ge
      obtain rfl := head.symm.trans (read_head ..)
      have tails : rest = tail := ih hrest htail fun a => by rw [read_tail hrest, read_tail htail, same]
      rw [tails]

end Memory

/-- Settles O28: by induction on the lists; the first address listed is the least that reads as listed. -/
theorem canonicalMemoriesAreEqualData : Obligations.CanonicalMemoriesAreEqualData :=
  fun _ _ hm hn same => Memory.eq_of_read_eq hm hn same

/-- Settles O29: a write changes the contents at its address alone, and only where plain memory answers. -/
theorem busReadReturnsTheLastWrite : Obligations.BusReadReturnsTheLastWrite := by
  intro s a v wf
  refine ⟨?plain, ?other, ?rest, s.busWrite_trace a v⟩
  case plain =>
    intro plain
    rw [State.peek_plain (s := s.busWrite a v) plain, State.busWrite_mem, State.read_stored wf, if_pos ⟨plain, rfl⟩]
  case other =>
    intro other
    rw [State.busWrite_mem, State.stored, if_neg other]
  case rest =>
    intro b ne
    rw [State.busWrite_mem, State.read_stored_other wf ne]

end Sys2Proof.Machine
end

section
/-! `SBC` on the adder (R187, R195 (g)) and the status byte (R33, R34), bit by bit. -/

namespace Sys2Proof.Machine

/-! ## Subtraction -/

/-- R195 (g): subtracting what was added, with the complement of the carry that was added, gives the byte back. -/
theorem adderResult_complement_adderResult (a m : Byte) (c : Bool) :
    adderResult (adderResult a m c) (255 - m) (!c) = a := by
  apply BitVec.eq_of_toNat_eq
  rw [adderResult_toNat, adderResult_toNat, complement_toNat]
  have := a.isLt
  have := m.isLt
  cases c <;> simp only [Bool.not_true, Bool.not_false, Bool.toNat_true, Bool.toNat_false] <;> omega

/-- Settles O24: the adder on the complement by its arithmetic; without the original carry the round trip fails on
0 + 0 - 0, which leaves a borrow. -/
theorem subtractionIsIntegerSubtraction : Obligations.SubtractionIsIntegerSubtraction := by
  refine ⟨?subtract, ?restore, ⟨State.reset, 0, by decide⟩⟩
  case subtract =>
    intro s m
    rw [xor_0xFF]
    exact ⟨_, rfl, adderResult_complement_toNat .., adderCarry_complement_iff .., adderOverflow_complement_iff ..⟩
  case restore =>
    intro s m
    rw [xor_0xFF]
    exact adderResult_complement_adderResult s.a m s.flagC

/-! ## The status byte -/

namespace State

/-- R33: the eight bits do not overflow the byte. -/
theorem pByte_toNat (b : Bool) (s : State) :
    (s.pByte b).toNat =
      s.flagN.toNat * 128 + s.flagV.toNat * 64 + 1 * 32 + b.toNat * 16 + s.flagD.toNat * 8 + s.flagI.toNat * 4 +
        s.flagZ.toNat * 2 + s.flagC.toNat := by
  rw [pByte, BitVec.toNat_ofNat]
  have := s.flagN.toNat_le
  have := s.flagV.toNat_le
  have := b.toNat_le
  have := s.flagD.toNat_le
  have := s.flagI.toNat_le
  have := s.flagZ.toNat_le
  have := s.flagC.toNat_le
  omega

/-- R28, R29, R33: which bit holds what. -/
theorem pByte_getLsbD (b : Bool) (s : State) {i : Nat} (h : i < 8) :
    (s.pByte b).getLsbD i = [s.flagC, s.flagZ, s.flagI, s.flagD, b, true, s.flagV, s.flagN][i] := by
  have bit : ((s.pByte b).getLsbD i).toNat = (s.pByte b).toNat / 2 ^ i % 2 := Nat.toNat_testBit ..
  rw [pByte_toNat] at bit
  have := s.flagN.toNat_le
  have := s.flagV.toNat_le
  have := b.toNat_le
  have := s.flagD.toNat_le
  have := s.flagI.toNat_le
  have := s.flagZ.toNat_le
  have := s.flagC.toNat_le
  rw [Bool.eq_iff_iff, ← Bool.toNat_eq_one, ← Bool.toNat_eq_one, bit]
  interval_cases i <;> simp only [List.getElem_cons_zero, List.getElem_cons_succ, Bool.toNat_true, iff_true] <;> omega

/-- R34: a status byte written back changes nothing. -/
theorem setP_pByte (b : Bool) (s t : State) :
    t.setP (s.pByte b) =
      { t with
        flagN := s.flagN, flagV := s.flagV, flagD := s.flagD, flagI := s.flagI, flagZ := s.flagZ, flagC := s.flagC } := by
  simp only [setP_eq, pByte_getLsbD, Nat.reduceLT]
  rfl

/-- R34: bits 5 and 4 of a pulled byte are lost. -/
theorem pByte_setP (b : Bool) (v : Byte) (s : State) :
    (s.setP v).pByte b = (v &&& 0xCF) ||| 0x20 ||| (if b then 0x10 else 0) := by
  apply BitVec.eq_of_getLsbD_eq
  intro i h
  rw [pByte_getLsbD b _ h]
  interval_cases i <;> cases b <;> simp

end State

/-- Settles O27: the image by its bits, which are where `SetP` takes them from. -/
theorem statusByteImages : Obligations.StatusByteImages := fun s b v =>
  ⟨s.pByte_toNat b, s.setP_eq v, s.setP_pByte b s, s.pByte_setP b v⟩

end Sys2Proof.Machine
end

section
/-! Events presented together to a running block (R40), and the invariant between ticks (R43, R330). -/

namespace Sys2Proof.Machine

/-! ## Events of one tick -/

namespace Block

/-- Events of which the first few lead to a block hand the rest to it. -/
theorem presentAll_append_of_next {es : List Event} {b b1 : Block} (h : b.presentAll es = .next b1)
    (rest : List Event) : b.presentAll (es ++ rest) = b1.presentAll rest := by
  induction es generalizing b with
  | nil =>
    cases h
    rfl
  | cons e es ih =>
    cases first : b.present e with
    | next b2 =>
      rw [List.cons_append, presentAll_cons_of_next first]
      exact ih ((presentAll_cons_of_next first es).symm.trans h)
    | fault r | refused r =>
      simp only [presentAll, first] at h
      cases h

theorem presentAll_singleton (e : Event) (b : Block) : b.presentAll [e] = b.present e := by
  rw [presentAll]
  cases b.present e <;> rfl

theorem present_reset_running (s : State) : (running s).present .reset = .next (.running s.resetEvent) := rfl

theorem present_triggerNmi_running (s : State) :
    (running s).present .triggerNmi = .next (.running s.triggerNmi) := rfl

theorem present_triggerIrq_running (s : State) :
    (running s).present .triggerIrq = .next (.running s.triggerIrq) := rfl

theorem present_tick_running (s : State) : (running s).present .tick = ofResult (step s) := rfl

/-- An input that is one event when presented, and none when not. -/
theorem presentAll_optional {e : Event} {s t : State} (h : (running s).present e = .next (.running t)) (p : Bool) :
    (running s).presentAll (if p then [e] else []) = .next (.running (if p then t else s)) := by
  cases p
  · rfl
  · rw [if_pos rfl, if_pos rfl, presentAll_singleton, h]

end Block

/-- Settles O3: `Reset` and the triggers each answer a running block, which is handed the inputs after it. -/
theorem eventsOfOneTickActInOrder : Obligations.EventsOfOneTickActInOrder := by
  refine ⟨?ordered, fun s => ⟨rfl, rfl⟩⟩
  case ordered =>
    intro p s s1 s2 s3
    have reset : (Block.running s).presentAll (if p.rst then [.reset] else []) = .next (.running s1) :=
      Block.presentAll_optional (Block.present_reset_running s) p.rst
    have nmi : (Block.running s1).presentAll (if p.nmiSet then [.triggerNmi] else []) = .next (.running s2) :=
      Block.presentAll_optional (Block.present_triggerNmi_running s1) p.nmiSet
    have irq : (Block.running s2).presentAll (if p.irqSet then [.triggerIrq] else []) = .next (.running s3) :=
      Block.presentAll_optional (Block.present_triggerIrq_running s2) p.irqSet
    rw [Inputs.events, List.append_assoc, List.append_assoc, Block.presentAll_append_of_next reset,
      Block.presentAll_append_of_next nmi, Block.presentAll_append_of_next irq]
    cases p.clk
    · rfl
    · exact (Block.presentAll_singleton ..).trans (Block.present_tick_running s3)

/-! ## The invariant at `Reset` and after a trigger -/

/-- Settles O13: a trigger writes a latch that the invariant does not speak of; `Reset` leaves no cycles and no fault. -/
theorem eventsKeepTheInvariant : Obligations.EventsKeepTheInvariant := by
  intro s
  refine ⟨?triggers, ?reset⟩
  case triggers =>
    rintro ⟨wf, cycles, latch⟩
    exact ⟨⟨wf, cycles, latch⟩, ⟨wf, cycles, latch⟩⟩
  case reset =>
    intro wf
    rw [s.resetEvent_frame]
    exact ⟨wf, Nat.zero_le 7, rfl⟩

/-- Settles O11: the reset state is what `Reset` makes of a state with nothing behind the bus. -/
theorem resetStateMeetsTheInvariant : Obligations.ResetStateMeetsTheInvariant := by
  have event := State.reset_eq_resetEvent { State.reset with trace := [] } rfl rfl rfl
  rw [Obligations.ResetStateMeetsTheInvariant, event]
  exact (eventsKeepTheInvariant _).2 rfl

end Sys2Proof.Machine
end

section
/-! Facts about single rows of the opcode table (R95): sample words, and which rows pay the page-cross cycle (R153). -/

namespace Sys2Proof

/-- Settles O17: each word by its row. -/
theorem sampleWordsDecode : Obligations.SampleWordsDecode :=
  ⟨rfl, rfl, rfl, rfl, rfl, rfl, rfl, rfl, rfl, rfl⟩

/-- R153, R284: an undocumented `NOP` pays the page-cross cycle in `ABX` only. -/
theorem nopTiming_cross (m : Mode) : ((nopTiming m).2 == .cross) = (m == .abx) := by
  cases m <;> rfl

/-- R153: the penalty of a form, against the class. -/
theorem penalty_of_form {i : Instr} {f : Form} (form : i.form = some f) :
    (f.penalty == .cross) = Machine.crossReadClass i := by
  revert form
  cases i
  case anc op d =>
    intro form
    obtain ⟨-, rfl⟩ := anc_of_form form
    rfl
  case nopU op o =>
    intro form
    obtain ⟨-, rfl⟩ := nopU_of_form form
    exact nopTiming_cross o.mode
  case invalid op =>
    intro form
    rw [Machine.form_invalid (Machine.invalid_of_form form).1] at form
    cases form
    rfl
  case lda o | ldx o | ldy o | sta o | stx o | sty o | ora o | and o | eor o | adc o | sbc o | cmp o | cpx o | cpy o
      | bit o | asl o | lsr o | rol o | ror o | inc o | dec o | jmp o | slo o | rla o | sre o | rra o | dcp o | isc o
      | sax o | lax o | ahx o =>
    cases o <;> rintro ⟨⟩ <;> rfl
  all_goals rintro ⟨⟩; rfl

/-- Settles O18: each form's penalty against the class. -/
theorem pageCrossPenaltyIsTheReadClass : Obligations.PageCrossPenaltyIsTheReadClass := by
  intro i f form
  rw [← penalty_of_form form, beq_iff_eq]

end Sys2Proof
end

section
/-! The resolver (R140 to R154): the indexed and the pointer modes as integer arithmetic, the reads it makes, and the
operand byte it leads to. -/

namespace Sys2Proof

/-- How many pointer reads the resolver makes for a form (R150 to R152). -/
def Operand.pointerReads : Operand → Nat
  | .izx _ | .izy _ | .ind _ => 2
  | _ => 0

namespace Machine

/-! ## The modes without a pointer -/

theorem zext16_eq (b : Byte) : zext16 b = BitVec.ofNat 16 b.toNat := by
  apply BitVec.eq_of_toNat_eq
  rw [zext16_toNat, BitVec.toNat_ofNat]
  exact (Nat.mod_eq_of_lt (b.isLt.trans (by decide))).symm

/-- R145, R146: zero-page indexing wraps in the zero page. -/
theorem zext16_add (d b : Byte) : zext16 (d + b) = BitVec.ofNat 16 ((d.toNat + b.toNat) % 256) := by
  rw [zext16_eq, BitVec.toNat_add]

/-- R148, R149, R152: an indexed address and its page cross as numbers. -/
theorem indexed_eq (base : Word) (index : Byte) :
    indexed base index =
      ⟨some (base + BitVec.ofNat 16 index.toNat), some base,
        (base.toNat + index.toNat) % 65536 / 256 ≠ base.toNat / 256⟩ := by
  have crossed : pageDiffers (base + zext16 index) base =
      decide ((base.toNat + index.toNat) % 65536 / 256 ≠ base.toNat / 256) := by
    rw [Bool.eq_iff_iff, pageDiffers_iff, decide_eq_true_iff, BitVec.toNat_add, zext16_toNat]
  rw [indexed, crossed, zext16_eq]

theorem add_ofNat_eq (w : Word) (n : Nat) : w + BitVec.ofNat 16 n = BitVec.ofNat 16 (w.toNat + n) := by
  rw [BitVec.ofNat_add, BitVec.ofNat_toNat, BitVec.setWidth_eq]

/-- R154: the target of a branch as a signed sum. -/
theorem branchTarget_eq (d : Byte) (s : State) : branchTarget d s = BitVec.ofInt 16 (s.pc.toNat + d.toInt) := by
  apply BitVec.eq_of_toNat_eq
  have target := branchTarget_toNat d s
  rw [BitVec.toNat_ofInt]
  omega

/-- Settles O19: each mode by its equation, the indexed ones and Relative as numbers. -/
theorem directModesResolve : Obligations.DirectModesResolve := by
  intro s d w
  refine ⟨rfl, rfl, rfl, ?zp, ?zpx, ?zpy, rfl, ?abx, ?aby, ?rel⟩
  case zp => rw [resolve, zext16_eq]
  case zpx => rw [resolve, zext16_add]
  case zpy => rw [resolve, zext16_add]
  case abx => rw [resolve, indexed_eq, add_ofNat_eq]
  case aby => rw [resolve, indexed_eq, add_ofNat_eq]
  case rel => rw [resolve, branchTarget_eq]

/-! ## The pointer modes -/

theorem resolve_izx (d : Byte) (s : State) :
    resolve (.izx d) s =
      (⟨some (s.readPair (zext16 (d + s.x)) (zext16 (d + s.x + 1))).1, none, false⟩,
        (s.readPair (zext16 (d + s.x)) (zext16 (d + s.x + 1))).2) := rfl

theorem resolve_izy (d : Byte) (s : State) :
    resolve (.izy d) s =
      (indexed (s.readPair (zext16 d) (zext16 (d + 1))).1 s.y, (s.readPair (zext16 d) (zext16 (d + 1))).2) := rfl

theorem eq_zext16 {a : Word} {b : Byte} (h : a.toNat = b.toNat) : a = zext16 b :=
  BitVec.eq_of_toNat_eq (h.trans (zext16_toNat b).symm)

/-- Settles O20: each pointer mode is one pair of reads, at the addresses that wrap in the page or the zero page. -/
theorem pointerModesResolve : Obligations.PointerModesResolve := by
  intro s aLow aHigh
  obtain ⟨l, h, low, high, pair⟩ := s.readPair_eq aLow aHigh
  refine ⟨l, h, _, low, high, rfl, ?ind, ?izx, ?izy⟩
  case ind =>
    rintro w rfl samePage
    obtain rfl : aHigh = w16 (hi aLow) (lo aLow + 1) :=
      BitVec.eq_of_toNat_eq (samePage.trans (w16_hi_lo_succ_toNat aLow).symm)
    rw [resolve_ind, pair]
  case izx =>
    intro d lowAddress highAddress
    obtain rfl : aLow = zext16 (d + s.x) := eq_zext16 (by rw [lowAddress, BitVec.toNat_add])
    obtain rfl : aHigh = zext16 (d + s.x + 1) := eq_zext16 (by rw [highAddress]; bv_omega)
    rw [resolve_izx, pair]
  case izy =>
    intro d lowAddress highAddress
    obtain rfl : aLow = zext16 d := eq_zext16 lowAddress
    obtain rfl : aHigh = zext16 (d + 1) := eq_zext16 (by rw [highAddress]; bv_omega)
    rw [resolve_izy, pair, indexed_eq]

/-! ## The reads and the operand byte -/

/-- R66, R140: the resolver adds its pointer reads to the trace, and no write. -/
theorem resolve_trace (o : Operand) (s : State) : ∃ new, (resolve o s).2.trace = new ++ s.trace ∧
    (∀ e ∈ new, ∃ a v, e = BusTxn.read a v) ∧ new.length = o.pointerReads := by
  cases o
  case ind | izx | izy => exact ⟨[_, _], rfl, by simp, rfl⟩
  all_goals exact ⟨[], rfl, nofun, rfl⟩

theorem readOperand_eq_busRead {o : Operand} (imm : ∀ d, o ≠ .imm d) (ea : Word) (s : State) :
    readOperand o ea s = s.busRead ea := by
  cases o
  case imm d => exact absurd rfl (imm d)
  all_goals rfl

/-- Settles O21: the resolver's frame and reads, and the operand byte by whether the form is Immediate. -/
theorem operandAccessChangesOnlyTheTrace : Obligations.OperandAccessChangesOnlyTheTrace := by
  intro o s
  obtain ⟨new, grows, areReads, -⟩ := resolve_trace o s
  refine ⟨resolve_frame o s, ⟨new, grows, areReads⟩, ?frame, ?imm, ?byte, ?none, ?address⟩
  case frame =>
    intro m s1 h
    obtain ⟨ea, -, read⟩ := Option.map_eq_some_iff.mp h
    have kept := readOperand_frame o ea (resolve o s).2
    rwa [read, resolve_frame] at kept
  case imm =>
    rintro d rfl
    rfl
  case byte =>
    intro imm ea s1 h
    obtain ⟨ea', found, resolved⟩ := Option.map_eq_some_iff.mp h
    cases resolved
    rw [State.operandOf, found, Option.map_some, readOperand_eq_busRead imm, State.busRead_eq]
  case none =>
    intro h
    rw [State.operandOf, Option.map_eq_none_iff.mp h, Option.map_none]
  case address => rw [State.addressOf, Option.map_eq_none_iff, resolve_ea_none]

end Machine

end Sys2Proof
end

section
/-! The two combinations with `MAGIC` (R271, R277) and the undocumented `NOP`s (R284). -/

namespace Sys2Proof

/-! ## `LAX #` and `XAA` -/

/-- R277: with `A` all ones the value of `MAGIC` is lost. -/
theorem allOnes_or_and (m x : Byte) : (0xFF ||| m) &&& x = x := by
  have ones : 0xFF ||| m = BitVec.allOnes 8 := BitVec.allOnes_or
  rw [ones, BitVec.allOnes_and]

namespace Machine

/-- Settles O51: both are rows of two cycles with an Immediate operand, and their effect is on that byte. -/
theorem unstableImmediateResults : Obligations.UnstableImmediateResults := by
  rintro s d t u rfl rfl
  refine ⟨encode_eq (i := .laxImm d) rfl, ?lax, encode_eq (i := .xaa d) rfl, ?xaa, ?ones, ?zero⟩
  case lax => rw [exec_laxImm, runRead_imm rfl rfl]; rfl
  case xaa => rw [exec_xaa, runRead_imm rfl rfl]; rfl
  case ones =>
    intro ones
    rw [ones, allOnes_or_and]
  case zero =>
    rintro rfl
    exact BitVec.and_zero

/-! ## The undocumented `NOP`s -/

/-- R95: the row at a `NOP` byte is in the one mode that lists the byte. -/
theorem nop_mode (m : Mode) : ∀ op ∈ nopOpcodes m, ((opcodeRow op).instr op 0).operand.mode = m := by
  intro op listed
  cases m <;> fin_cases listed <;> exact rfl

theorem form_nopU {op : Byte} {o : Operand} (h : op ∈ nopOpcodes o.mode) :
    (Instr.nopU op o).form = some ⟨op, (nopTiming o.mode).1, (nopTiming o.mode).2⟩ := if_pos h

theorem form_nopU_none {op : Byte} {o : Operand} (h : op ∉ nopOpcodes o.mode) : (Instr.nopU op o).form = none :=
  if_neg h

/-- R284: a `NOP` byte has a form in its own mode and in no other. -/
theorem formsAre_nopU {m : Mode} {op : Byte} (h : op ∈ nopOpcodes m) :
    FormsAre (.nopU op) [(m, ⟨op, (nopTiming m).1, (nopTiming m).2⟩)] := by
  intro o
  by_cases same : o.mode = m
  · subst same
    rw [form_nopU h, List.lookup_cons_self]
  · have other : op ∉ nopOpcodes o.mode := fun h' => same ((nop_mode _ op h').symm.trans (nop_mode _ op h))
    rw [form_nopU_none other, List.lookup_cons, beq_false_of_ne same]
    rfl

/-- R284: the bytes of all modes together. -/
theorem nopOpcodes_subset (m : Mode) : nopOpcodes m ⊆
    [0x1A, 0x3A, 0x5A, 0x7A, 0xDA, 0xFA, 0x80, 0x82, 0x89, 0xC2, 0xE2, 0x04, 0x44, 0x64, 0x14, 0x34, 0x54, 0x74, 0xD4,
      0xF4, 0x0C, 0x1C, 0x3C, 0x5C, 0x7C, 0xDC, 0xFC] := by
  cases m <;> decide

/-- R284: no `NOP` is in Accumulator mode, so one that is not Implied has an address. -/
theorem addressedRow_nopU {op : Byte} {o : Operand} (listed : op ∈ nopOpcodes o.mode) (imp : o ≠ .imp) :
    AddressedRow (.nopU op o) where
  form := ⟨_, form_nopU listed⟩
  ne_imp := imp
  ne_acc := by
    rintro rfl
    cases listed

/-- Settles O52: the forms by the mode that lists the byte; without operand bytes nothing happens, and the others are
rows of the read class whose effect is none. -/
theorem undocumentedNopResults : Obligations.UndocumentedNopResults := by
  refine ⟨fun op h => formsAre_nopU (m := .imp) h, fun op h => formsAre_nopU (m := .imm) h,
    fun op h => formsAre_nopU (m := .zp) h, fun op h => formsAre_nopU (m := .zpx) h,
    formsAre_nopU (m := .abs) (List.mem_singleton_self _), fun op h => formsAre_nopU (m := .abx) h, ?others, ?results⟩
  case others =>
    intro op unlisted o
    exact form_nopU_none fun h => unlisted (nopOpcodes_subset _ h)
  case results =>
    intro op o s wf
    obtain ⟨f, form⟩ := wellFormed_iff.mp wf
    have listed := (nopU_of_form form).1
    refine ⟨?imp, ?imm, ?addressed⟩
    case imp =>
      rintro rfl
      rw [exec_nopU_imp, runImplied_twoCycles (form_nopU listed)]
      rfl
    case imm =>
      rintro d rfl
      rw [exec_nopU (o := .imm d) nofun, runRead_imm (form_nopU listed) rfl]
    case addressed =>
      intro imp
      rw [exec_nopU imp]
      exact (addressedRow_nopU listed imp).runRead_answers _ s

end Machine

end Sys2Proof
end

section
/-! What the stack gives back (R68, R231, R253, R315): the bytes pushed on a plain stack page are the bytes pulled, so
`RTS` undoes `JSR`, a pull its push, and `RTI` an entry. -/

namespace Sys2Proof.Machine

namespace State

/-- Which addresses are plain is for the bus map alone. -/
theorem PlainStack.of_busMap {s t : State} (plain : s.PlainStack) (map : t.busMap = s.busMap) : t.PlainStack :=
  fun b => by
    rw [State.plain, map]
    exact plain b

/-- Over a plain stack page a pull sees the contents, whatever the trace. -/
theorem peek_stackAddr {s : State} (plain : s.PlainStack) (b : Byte) :
    s.peek (stackAddr b) = s.mem.read (stackAddr b).toNat := peek_plain (plain b)

theorem read_push_top {s : State} (plain : s.PlainStack) (wf : s.mem.wf = true) (v : Byte) :
    (s.push v).mem.read (stackAddr s.sp).toNat = v := by
  rw [push_mem, read_stored wf, if_pos ⟨plain s.sp, rfl⟩]

/-- A push leaves every other slot of the stack page. -/
theorem read_push_other {s : State} (wf : s.mem.wf = true) (v : Byte) {b : Byte} (ne : b ≠ s.sp) :
    (s.push v).mem.read (stackAddr b).toNat = s.mem.read (stackAddr b).toNat := by
  rw [push_mem, read_stored_other wf]
  rw [stackAddr_toNat, stackAddr_toNat]
  bv_omega

/-- Two pushes, read back: the slots do not meet, whatever `SP` is. -/
theorem read_push_push {s : State} (plain : s.PlainStack) (wf : s.mem.wf = true) (v w : Byte) :
    ((s.push v).push w).mem.read (stackAddr s.sp).toNat = v ∧
    ((s.push v).push w).mem.read (stackAddr (s.sp - 1)).toNat = w := by
  have wf' := push_mem_wf wf v
  refine ⟨?first, read_push_top (s := s.push v) plain wf' w⟩
  case first =>
    rw [read_push_other wf' w (by rw [push_sp]; bv_omega), read_push_top plain wf]

/-- Three pushes, read back. -/
theorem read_push_push_push {s : State} (plain : s.PlainStack) (wf : s.mem.wf = true) (v w x : Byte) :
    (((s.push v).push w).push x).mem.read (stackAddr s.sp).toNat = v ∧
    (((s.push v).push w).push x).mem.read (stackAddr (s.sp - 1)).toNat = w ∧
    (((s.push v).push w).push x).mem.read (stackAddr (s.sp - 1 - 1)).toNat = x := by
  have wf' := push_mem_wf (push_mem_wf wf v) w
  obtain ⟨first, second⟩ := read_push_push plain wf v w
  refine ⟨?first, ?second, read_push_top (s := (s.push v).push w) plain wf' x⟩
  case first => rw [read_push_other wf' x (by rw [push_sp, push_sp]; bv_omega), first]
  case second => rw [read_push_other wf' x (by rw [push_sp, push_sp]; bv_omega), second]

/-- R253: what a return over a plain stack page pulls, from the three slots above `SP`. -/
theorem interruptReturn_plain {t : State} (plain : t.PlainStack) {p l h : Byte}
    (status : t.mem.read (stackAddr (t.sp + 1)).toNat = p) (low : t.mem.read (stackAddr (t.sp + 1 + 1)).toNat = l)
    (high : t.mem.read (stackAddr (t.sp + 1 + 1 + 1)).toNat = h) :
    t.interruptReturn =
      { t.setP p with sp := t.sp + 1 + 1 + 1, pc := w16 h l, trace := t.interruptReturn.trace } := by
  have first : t.pull.1 = p := (peek_stackAddr plain _).trans status
  have second : (t.pull.2.setP p).pull.1 = l :=
    (peek_stackAddr (s := t.pull.2.setP p) (plain.of_busMap (by simp)) _).trans (by simpa using low)
  have third : (t.pull.2.setP p).pull.2.pull.1 = h :=
    (peek_stackAddr (s := (t.pull.2.setP p).pull.2) (plain.of_busMap (by simp)) _).trans (by simpa using high)
  have answers : t.interruptReturn = (t.pull.2.setP p).pull.2.pull.2.setPC (w16 h l) := by
    simp only [interruptReturn, first, second, third]
  ext1 <;> simp [answers]

/-- R315: over a plain stack page a return undoes an entry, but for memory, the trace and the counter. -/
theorem interruptReturn_interruptEntry {s : State} (plain : s.PlainStack) (wf : s.mem.wf = true) (vector : Word)
    (b : Bool) (n : Nat) :
    ((s.interruptEntry vector b).setCycles n).interruptReturn =
      { s with
        mem := (s.interruptEntry vector b).mem, cyclesRemaining := n
        trace := ((s.interruptEntry vector b).setCycles n).interruptReturn.trace } := by
  obtain ⟨high, low, status⟩ := read_push_push_push plain wf (hi s.pc) (lo s.pc) (s.pByte b)
  have one : s.sp - 1 - 1 - 1 + 1 = s.sp - 1 - 1 := by bv_omega
  have two : s.sp - 1 - 1 + 1 = s.sp - 1 := by bv_omega
  have three : s.sp - 1 + 1 = s.sp := by bv_omega
  have returns := interruptReturn_plain (t := (s.interruptEntry vector b).setCycles n)
    (plain.of_busMap (by rw [setCycles_busMap, interruptEntry_busMap]))
    (p := s.pByte b) (l := lo s.pc) (h := hi s.pc)
  simp only [setCycles_mem, setCycles_sp, interruptEntry_sp, interruptEntry_mem, one, two, three] at returns
  rw [returns status low high, setP_pByte, w16_hi_lo, setCycles, interruptEntry_frame]

end State

/-! ## `JSR` and `RTS` -/

/-- R231: over a plain stack page `RTS` goes past the address in the two slots above `SP`. -/
theorem exec_rts_plain {t : State} (plain : t.PlainStack) {r : Word}
    (low : t.mem.read (stackAddr (t.sp + 1)).toNat = lo r)
    (high : t.mem.read (stackAddr (t.sp + 1 + 1)).toNat = hi r) :
    ∃ tr, exec .rts t = .next { t with sp := t.sp + 1 + 1, pc := r + 1, cyclesRemaining := 5, trace := tr } := by
  have first : t.pull.1 = lo r := (State.peek_stackAddr plain _).trans low
  have second : t.pull.2.pull.1 = hi r :=
    (State.peek_stackAddr (s := t.pull.2) (plain.of_busMap (by simp)) _).trans (by simpa using high)
  refine ⟨t.pull.2.pull.2.trace, ?_⟩
  rw [exec_rts, runImplied_eq rfl, first, second, w16_hi_lo]
  apply congrArg Host.Outcome.next
  ext1 <;> simp

/-- Settles O43: the two bytes pushed are the two pulled, and the address was pushed less one. -/
theorem jsrThenRtsReturns : Obligations.JsrThenRtsReturns := by
  intro w s plain wf
  obtain ⟨high, low⟩ := State.read_push_push plain wf (hi (s.pc - 1)) (lo (s.pc - 1))
  obtain ⟨-, jsr, -⟩ := subroutineResults w s
  have one : s.sp - 1 - 1 + 1 = s.sp - 1 := by bv_omega
  have two : s.sp - 1 + 1 = s.sp := by bv_omega
  obtain ⟨tr, rts⟩ := exec_rts_plain
    (t := { (s.push (hi (s.pc - 1))).push (lo (s.pc - 1)) with pc := w, cyclesRemaining := 5 }) (r := s.pc - 1) plain
    (by simp only [State.push_sp, one]; exact low) (by simp only [State.push_sp, one, two]; exact high)
  refine ⟨_, _, jsr, rfl, rts, ?_⟩
  simp only [State.push_sp, one, two, BitVec.sub_add_cancel]
  rfl

/-! ## Pushes and pulls -/

/-- A push on a plain stack page and then a pull, whatever was done to the other registers in between. -/
theorem State.pull_push {s t : State} (plain : s.PlainStack) (wf : s.mem.wf = true) {v : Byte}
    (mem : t.mem = (s.push v).mem) (map : t.busMap = s.busMap) (sp : t.sp = s.sp - 1) :
    t.pull.1 = v ∧ t.pull.2.sp = s.sp := by
  have back : t.sp + 1 = s.sp := by rw [sp, BitVec.sub_add_cancel]
  exact ⟨by rw [pull_value, peek_stackAddr (plain.of_busMap map), back, mem, read_push_top plain wf], back⟩

/-- Settles O45: the slot pulled is the one pushed, and holds the byte; a status byte holds all six flags. -/
theorem pushThenPullRestores : Obligations.PushThenPullRestores := by
  intro s v plain wf
  refine ⟨?a, ?flags⟩
  case a =>
    refine ⟨_, _, (exec_pha s).trans (runImplied_eq rfl _ s), (exec_pla _).trans (runImplied_eq rfl _ _), ?_⟩
    exact State.pull_push (t := ((s.push s.a).charge _ false 0).setA v) plain wf rfl rfl rfl
  case flags =>
    refine ⟨_, _, (exec_php s).trans (runImplied_eq rfl _ s), (exec_plp _).trans (runImplied_eq rfl _ _), ?_⟩
    obtain ⟨byte, back⟩ :=
      State.pull_push (t := ((s.push (s.pByte true)).charge ⟨0x08, 3, .never⟩ false 0).setP v) plain wf rfl rfl rfl
    rw [byte, State.setP_pByte, charge_eq]
    exact ⟨back, rfl, rfl, rfl, rfl, rfl, rfl⟩

/-! ## Entry and return -/

/-- The entry saves the address it is given, so `PC` itself does not matter. -/
theorem State.setPC_afterEntry (w : Word) (s : State) (vector ret : Word) (b : Bool) :
    (s.setPC w).afterEntry vector ret b = s.afterEntry vector ret b := rfl

/-- R252: `BRK` is an entry past its padding byte, of seven cycles. -/
theorem exec_brk_eq (s : State) :
    exec .brk s = .next (((s.setPC (s.pc + 1)).interruptEntry vecIrq true).setCycles 6) := by
  rw [exec_brk, runImplied_eq rfl, State.charge]
  rfl

/-- Settles O47: both are instructions without operand; `BRK` runs the written-out entry past its padding byte, `RTI`
the three pulls. -/
theorem breakAndReturnResults : Obligations.BreakAndReturnResults := by
  intro s
  refine ⟨encode_implied rfl rfl, encode_implied rfl rfl, ?brk, s.pull.1, (s.pull.2.setP s.pull.1).pull.1,
    (s.pull.2.setP s.pull.1).pull.2.pull.1, s.pull.2, (s.pull.2.setP s.pull.1).pull.2,
    (s.pull.2.setP s.pull.1).pull.2.pull.2, rfl, rfl, rfl, ?rti⟩
  case brk =>
    rw [exec_brk_eq, State.interruptEntry_eq_afterEntry, State.setPC_afterEntry, State.setPC_pc]
    rfl
  case rti =>
    rw [exec_rti, runImplied_eq rfl]
    rfl

/-- R253: `RTI` after an entry with `n` cycles still to spend. -/
theorem exec_rti_interruptEntry {s : State} (plain : s.PlainStack) (wf : s.mem.wf = true) (vector : Word) (b : Bool)
    (n : Nat) : ∃ u, exec .rti ((s.interruptEntry vector b).setCycles n) = .next u ∧
      u = { s with mem := u.mem, cyclesRemaining := 5, trace := u.trace } := by
  refine ⟨_, runImplied_eq (i := .rti) rfl _ _, ?_⟩
  rw [State.interruptReturn_interruptEntry plain wf]
  rfl

/-- Settles O48: `RTI` undoes the entry of the state that was interrupted: past the padding byte, or with its latch
cleared. -/
theorem entryThenRtiResumes : Obligations.EntryThenRtiResumes := by
  intro s plain wf
  refine ⟨?brk, ?nmi, ?irq⟩
  case brk =>
    obtain ⟨u, returns, resumed⟩ := exec_rti_interruptEntry (s := s.setPC (s.pc + 1)) plain wf vecIrq true 6
    exact ⟨_, u, exec_brk_eq s, returns, resumed⟩
  case nmi => exact exec_rti_interruptEntry (s := { s with nmiPending := false }) plain wf vecNmi false 6
  case irq => exact exec_rti_interruptEntry (s := { s with irqPending := false }) plain wf vecIrq false 6

end Sys2Proof.Machine
end

section
/-! What an instruction can do, said once: its effect on the registers confined to what the "Written by" lists name
(R20 to R32), the bus transactions it makes, and that it does not look at `D`, the counter or the latches (R339). -/

namespace Sys2Proof

/-! ## Terms -/

/-- How many bus transactions an instruction makes at most, its fetch and its pointer reads apart. -/
def Instr.transactions : Instr → Nat
  | .jmp _ => 0
  | .rti => 3
  | .brk => 5
  | _ => 2

namespace Machine

/-- The addresses an instruction may write, from what its operand resolves to and the registers before it. -/
def storeSlots (i : Instr) (r : Resolved) (s : State) : List Word :=
  match i with
  | .pha | .php => [stackAddr s.sp]
  | .jsr _ => [stackAddr s.sp, stackAddr (s.sp - 1)]
  | .brk => [stackAddr s.sp, stackAddr (s.sp - 1), stackAddr (s.sp - 1 - 1)]
  | .ahx _ | .shy _ | .shx _ | .tas _ =>
    match highStoreValue s i, r with
    | some v0, ⟨some ea, some base, crossed⟩ =>
      [if crossed then w16 (hi ea &&& (v0 &&& (hi base + 1))) (lo ea) else ea]
    | _, _ => []
  | _ => if writesMem i then r.ea.toList else []

/-- The state `s` with those registers and flags of `t` that the instruction's rule names. -/
def confined (i : Instr) (s t : State) : State :=
  { s with
    a := if writesA i then t.a else s.a
    x := if writesX i then t.x else s.x
    y := if writesY i then t.y else s.y
    sp := if writesSP i then t.sp else s.sp
    pc := if transfersControl i then t.pc else s.pc
    flagC := if writesC i then t.flagC else s.flagC
    flagZ := if writesZN i then t.flagZ else s.flagZ
    flagN := if writesZN i then t.flagN else s.flagN
    flagI := if writesI i then t.flagI else s.flagI
    flagD := if writesD i then t.flagD else s.flagD
    flagV := if writesV i then t.flagV else s.flagV }

/-- The two instructions that push the status byte, and with it `D` (R33). -/
def pushesStatus : Instr → Bool
  | .php | .brk => true
  | _ => false

/-- The state with the `D`, the counter and the latches of `u`. -/
def State.withHidden (u s : State) : State :=
  { s with
    flagD := u.flagD, cyclesRemaining := u.cyclesRemaining, nmiPending := u.nmiPending, irqPending := u.irqPending }

/-- The contents after the transactions of a log, newest first. -/
def State.replay (s : State) : List BusTxn → Memory
  | [] => s.mem
  | .read _ _ :: older => s.replay older
  | .write a v :: older => State.stored { s with mem := s.replay older } a v

/-- The transactions of the log, newest first, lead from the trace and the contents of `s` to those of `t`. -/
structure BusLog (s t : State) (log : List BusTxn) : Prop where
  trace : t.trace = log ++ s.trace
  mem : t.mem = s.replay log
  busMap : t.busMap = s.busMap

/-! ## Logs -/

theorem BusLog.refl (s : State) : BusLog s s [] := ⟨rfl, rfl, rfl⟩

/-- One log after another, on the contents the first one left. -/
theorem State.replay_append {s t : State} {first : List BusTxn} (mem : t.mem = s.replay first)
    (map : t.busMap = s.busMap) (second : List BusTxn) : s.replay (second ++ first) = t.replay second := by
  induction second with
  | nil => exact mem.symm
  | cons e second ih =>
    cases e with
    | read a v => exact ih
    | write a v =>
      rw [List.cons_append, replay, replay, ih]
      simp only [stored, map]

theorem BusLog.trans {s t u : State} {first second : List BusTxn} (h : BusLog s t first) (h' : BusLog t u second) :
    BusLog s u (second ++ first) where
  trace := by rw [h'.trace, h.trace, List.append_assoc]
  mem := by rw [h'.mem, State.replay_append h.mem h.busMap]
  busMap := h'.busMap.trans h.busMap

theorem State.replay_wf {s : State} (wf : s.mem.wf = true) (log : List BusTxn) : (s.replay log).wf = true := by
  induction log with
  | nil => exact wf
  | cons e log ih =>
    cases e with
    | read a v => exact ih
    | write a v => exact stored_wf (s := { s with mem := s.replay log }) ih a v

/-- A log without a write leaves the contents. -/
theorem State.replay_of_no_write (s : State) {log : List BusTxn} (none : ∀ a v, .write a v ∉ log) :
    s.replay log = s.mem := by
  induction log with
  | nil => rfl
  | cons e log ih =>
    cases e with
    | read a v => exact ih fun a v h => none a v (List.mem_cons_of_mem _ h)
    | write a v => exact absurd (List.mem_cons_self ..) (none a v)

/-- A byte that no write of the log addresses is as before. -/
theorem State.read_replay_other {s : State} (wf : s.mem.wf = true) {log : List BusTxn} {b : Nat}
    (other : ∀ a v, .write a v ∈ log → b ≠ a.toNat) : (s.replay log).read b = s.mem.read b := by
  induction log with
  | nil => rfl
  | cons e log ih =>
    have rest := ih fun a v h => other a v (List.mem_cons_of_mem _ h)
    cases e with
    | read a v => exact rest
    | write a v =>
      have ne := other a v (List.mem_cons_self ..)
      exact (read_stored_other (s := { s with mem := s.replay log }) (replay_wf wf log) ne).trans rest

/-- The resolver's pointer reads, as a log. -/
theorem resolve_busLog (o : Operand) (s : State) :
    ∃ log, BusLog s (resolve o s).2 log ∧ log.length = o.pointerReads ∧ ∀ a v, .write a v ∉ log := by
  obtain ⟨log, trace, reads, length⟩ := resolve_trace o s
  have none : ∀ a v, BusTxn.write a v ∉ log := fun a v h => by
    obtain ⟨_, _, same⟩ := reads _ h
    cases same
  refine ⟨log, ⟨trace, ?mem, ?busMap⟩, length, none⟩
  case mem => rw [s.replay_of_no_write none, resolve_frame]
  case busMap => rw [resolve_frame]

theorem busLog_busWrite (a : Word) (v : Byte) (s : State) : BusLog s (s.busWrite a v) [.write a v] :=
  ⟨rfl, s.busWrite_mem a v, rfl⟩

theorem busLog_busRead (a : Word) (s : State) : BusLog s (s.busRead a).2 [.read a (s.peek a)] := ⟨rfl, rfl, rfl⟩

theorem readOperand_busLog (o : Operand) (ea : Word) (s : State) :
    ∃ log, BusLog s (readOperand o ea s).2 log ∧ log.length ≤ 1 ∧ ∀ a v, .write a v ∉ log := by
  cases o
  case imm => exact ⟨[], .refl s, Nat.zero_le 1, nofun⟩
  all_goals exact ⟨[_], ⟨rfl, rfl, rfl⟩, le_rfl, by simp⟩

/-! ## Effects -/

/-- An effect on the registers and flags alone: it writes what the instruction's rule names, and does the same whatever
`D`, the counter and the latches hold. -/
structure RegisterEffect (i : Instr) (e : State → State) : Prop where
  frame : ∀ s, e s = confined i s (e s)
  hidden : ∀ u s : State, e (u.withHidden s) =
    { u.withHidden (e s) with flagD := if writesD i then (e s).flagD else u.flagD }

/-- An effect on the bus too: what it writes there is at the instruction's slots. Only what pushes the status byte looks
at `D`. -/
structure Effect (i : Instr) (r : Resolved) (e : State → State) : Prop where
  frame : ∀ s, e s = { confined i s (e s) with mem := (e s).mem, trace := (e s).trace }
  hidden : ∀ u s : State, (pushesStatus i = true → u.flagD = s.flagD) → e (u.withHidden s) =
    { u.withHidden (e s) with flagD := if writesD i then (e s).flagD else u.flagD }
  bus : ∀ s, ∃ log, BusLog s (e s) log ∧ log.length ≤ i.transactions ∧ ∀ a v, .write a v ∈ log → a ∈ storeSlots i r s

theorem RegisterEffect.mem {i : Instr} {e : State → State} (h : RegisterEffect i e) (s : State) :
    (e s).mem = s.mem := by
  rw [h.frame]
  rfl

theorem RegisterEffect.trace {i : Instr} {e : State → State} (h : RegisterEffect i e) (s : State) :
    (e s).trace = s.trace := by
  rw [h.frame]
  rfl

theorem RegisterEffect.busLog {i : Instr} {e : State → State} (h : RegisterEffect i e) (s : State) :
    BusLog s (e s) [] :=
  ⟨h.trace s, h.mem s, by rw [h.frame]; rfl⟩

/-- Bus transactions of an instruction: they change the contents and the trace alone, and only what pushes the status
byte looks at `D`. -/
structure BusActivity (i : Instr) (r : Resolved) (b : State → State) : Prop where
  frame : ∀ s, b s = { s with mem := (b s).mem, trace := (b s).trace }
  hidden : ∀ u s : State, (pushesStatus i = true → u.flagD = s.flagD) → b (u.withHidden s) = u.withHidden (b s)
  bus : ∀ s, ∃ log, BusLog s (b s) log ∧ log.length ≤ i.transactions ∧ ∀ a v, .write a v ∈ log → a ∈ storeSlots i r s

/-- What is confined does not depend on the bus. -/
theorem confined_of_bus {i : Instr} {s s' : State} (h : s' = { s with mem := s'.mem, trace := s'.trace }) (t : State) :
    confined i s' t = { confined i s t with mem := s'.mem, trace := s'.trace } := by
  rw [h]
  rfl

/-- Bus transactions and then an effect on the registers, which may depend on the bytes read. -/
theorem BusActivity.effect {i : Instr} {r : Resolved} {b e : State → State} {regs : State → State → State}
    (activity : BusActivity i r b) (split : ∀ s, e s = regs s (b s)) (register : ∀ s, RegisterEffect i (regs s))
    (blind : ∀ u s : State, regs (u.withHidden s) = regs s) : Effect i r e where
  frame s := by
    rw [split, (register s).mem, (register s).trace]
    exact ((register s).frame (b s)).trans (confined_of_bus (activity.frame s) _)
  hidden u s h := by
    rw [split, split, blind, activity.hidden u s h, (register s).hidden]
  bus s := by
    obtain ⟨log, busLog, length, slots⟩ := activity.bus s
    exact ⟨log, split s ▸ busLog.trans ((register s).busLog (b s)), length, slots⟩

/-! ## The shapes -/

/-- What an instruction's execution can be: an effect without an address, an effect at the address its operand resolves
to, a branch, or the sentinel. -/
inductive Behaves (i : Instr) : Prop
  | implied (e : State → State) (runs : ∀ s, exec i s = runImplied i e s) (effect : ∀ r, Effect i r e)
  | addressed (e : Word → Resolved → State → State) (runs : ∀ s, exec i s = runAddressed i e s)
      (effect : i.form ≠ none → ∀ s ea, (resolve i.operand s).1.ea = some ea →
        Effect i (resolve i.operand s).1 (e ea (resolve i.operand s).1))
  | branch (d : Byte) (cond : State → Bool) (runs : ∀ s, exec i s = runBranch i d (cond s) s)
      (blind : ∀ u s : State, cond (u.withHidden s) = cond s) (control : transfersControl i = true)
      (keepsD : writesD i = false) (form : ∃ opcode, i.form = some ⟨opcode, 2, .branch⟩)
  | sentinel (op : Byte) (same : i = .invalid op)

theorem BusActivity.of_none (i : Instr) (r : Resolved) : BusActivity i r id where
  frame _ := rfl
  hidden _ _ _ := rfl
  bus s := ⟨[], .refl s, Nat.zero_le _, nofun⟩

theorem RegisterEffect.effect {i : Instr} {e : State → State} (h : RegisterEffect i e) (r : Resolved) :
    Effect i r e :=
  (BusActivity.of_none i r).effect (regs := fun _ => e) (fun _ => rfl) (fun _ => h) fun _ _ => rfl

theorem Behaves.of_runImplied {i : Instr} {e : State → State} (runs : ∀ s, exec i s = runImplied i e s)
    (register : RegisterEffect i e) : Behaves i :=
  .implied e runs register.effect

theorem readOperand_withHidden (o : Operand) (ea : Word) (u s : State) :
    readOperand o ea (u.withHidden s) = ((readOperand o ea s).1, u.withHidden (readOperand o ea s).2) := by
  cases o <;> rfl

theorem BusActivity.of_readOperand {i : Instr} (room : i.transactions = 2) (o : Operand) (ea : Word) (r : Resolved) :
    BusActivity i r fun s => (readOperand o ea s).2 where
  frame s := by cases o <;> rfl
  hidden u s _ := congrArg Prod.snd (readOperand_withHidden o ea u s)
  bus s := by
    obtain ⟨log, busLog, length, none⟩ := readOperand_busLog o ea s
    exact ⟨log, busLog, length.trans (by omega), fun a v h => absurd h (none a v)⟩

/-- R8: the read class. -/
theorem Behaves.of_runRead {i : Instr} {e : Byte → State → State} (runs : ∀ s, exec i s = runRead i e s)
    (room : i.transactions = 2) (register : ∀ m, RegisterEffect i (e m)) : Behaves i :=
  .addressed _ runs fun _ s ea _ =>
    (BusActivity.of_readOperand room i.operand ea (resolve i.operand s).1).effect
      (regs := fun s => e (readOperand i.operand ea s).1) (fun _ => rfl) (fun _ => register _)
      fun u s => by rw [readOperand_withHidden]

/-- One write of a byte that does not depend on what is hidden, at a slot of the instruction. -/
theorem BusActivity.of_busWrite {i : Instr} (room : i.transactions = 2) {r : Resolved} {addr : State → Word}
    {value : State → Byte} (slot : ∀ s, storeSlots i r s = [addr s])
    (blind : ∀ u s : State, addr (u.withHidden s) = addr s ∧ value (u.withHidden s) = value s) :
    BusActivity i r fun s => s.busWrite (addr s) (value s) where
  frame s := rfl
  hidden u s _ := by
    obtain ⟨sameAddr, sameValue⟩ := blind u s
    rw [sameAddr, sameValue]
    rfl
  bus s := ⟨_, busLog_busWrite .., room ▸ Nat.le_succ 1, by simp [slot]⟩

theorem RegisterEffect.unchanged {i : Instr} (keepsD : writesD i = false) : RegisterEffect i id where
  frame s := by simp only [confined, id, ite_self]
  hidden u s := by simp only [keepsD, Bool.false_eq_true, if_false, State.withHidden, id]

/-- R8: the store class. -/
theorem Behaves.of_runStore {i : Instr} {value : State → Byte} (runs : ∀ s, exec i s = runStore i value s)
    (room : i.transactions = 2) (keepsD : writesD i = false) (slot : ∀ r s, storeSlots i r s = r.ea.toList)
    (blind : ∀ u s : State, value (u.withHidden s) = value s) : Behaves i :=
  .addressed _ runs fun _ s ea hea =>
    (BusActivity.of_busWrite room (addr := fun _ => ea) (fun s' => by rw [slot, hea]; rfl)
      fun u s => ⟨rfl, blind u s⟩).effect (regs := fun _ => id) (fun _ => rfl) (fun _ => .unchanged keepsD) fun _ _ => rfl

/-- R210: one read and one write at the address, which is a slot of the instruction. -/
theorem BusActivity.of_readWrite {i : Instr} (room : i.transactions = 2) {r : Resolved} {ea : Word}
    (slot : ∀ s, storeSlots i r s = [ea]) (g : Byte → Bool → Byte × Bool) :
    BusActivity i r fun s => (s.busRead ea).2.busWrite ea (g (s.peek ea) s.flagC).1 where
  frame s := rfl
  hidden u s _ := rfl
  bus s := ⟨_, (busLog_busRead ..).trans (busLog_busWrite ..), room.ge, by simp [slot]⟩

/-- R8, R210: the read-modify-write class. -/
theorem Behaves.of_runModify {i : Instr} {g : Byte → Bool → Byte × Bool} {e : Byte → State → State}
    (runs : ∀ s, exec i s = runModify i g e s) (room : i.transactions = 2)
    (slot : ∀ r s, storeSlots i r s = r.ea.toList)
    (register : ∀ m, RegisterEffect i fun s => e (g m s.flagC).1 (s.setC (g m s.flagC).2)) : Behaves i :=
  .addressed _ runs fun _ s ea hea =>
    (BusActivity.of_readWrite room (fun s' => by rw [slot, hea]; rfl) g).effect
      (regs := fun s s' => e (g (s.peek ea) s'.flagC).1 (s'.setC (g (s.peek ea) s'.flagC).2)) (fun _ => rfl)
      (fun _ => register _) fun _ _ => rfl

/-- A high-byte store of a row of the table runs at the address and the base its operand resolves to. -/
theorem runStoreHigh_eq_runAddressed {i : Instr} {before : State → State} {value : State → Byte}
    (based : i.form ≠ none → ∀ s, ∃ ea base, (resolve i.operand s).1.ea = some ea ∧
      (resolve i.operand s).1.base = some base) (s : State) :
    runStoreHigh i before value s =
      runAddressed i (fun ea r s1 => storeHigh (value (before s1)) (r.base.getD 0) ea r.crossed (before s1)) s := by
  cases form : i.form with
  | none => simp only [runStoreHigh, runAddressed, form]
  | some f =>
    obtain ⟨ea, base, hea, hbase⟩ := based (by simp [form]) s
    have resolved : resolve i.operand s =
        (⟨some ea, some base, (resolve i.operand s).1.crossed⟩, (resolve i.operand s).2) := by
      rw [← hea, ← hbase]
    rw [runAddressed_eq form hea, hbase]
    exact runStoreHigh_eq form resolved before value

/-- R279: the group of the high-byte stores. `before` is a change of registers, of which the write knows nothing. -/
theorem Behaves.of_runStoreHigh {i : Instr} {before : State → State} {value : State → Byte}
    (runs : ∀ s, exec i s = runStoreHigh i before value s)
    (based : i.form ≠ none → ∀ s, ∃ ea base, (resolve i.operand s).1.ea = some ea ∧
      (resolve i.operand s).1.base = some base)
    (room : i.transactions = 2)
    (slot : ∀ ea base crossed s, storeSlots i ⟨some ea, some base, crossed⟩ s =
      [if crossed then w16 (hi ea &&& (value (before s) &&& (hi base + 1))) (lo ea) else ea])
    (register : RegisterEffect i before) (commutes : ∀ a v s, (before s).busWrite a v = before (s.busWrite a v))
    (blind : ∀ u s : State, value (before (u.withHidden s)) = value (before s)) : Behaves i := by
  refine .addressed _ (fun s => (runs s).trans (runStoreHigh_eq_runAddressed based s)) fun form s ea hea => ?_
  obtain ⟨ea', base, hea', hbase⟩ := based form s
  obtain rfl : ea' = ea := Option.some.inj (hea'.symm.trans hea)
  have slots : ∀ s', storeSlots i (resolve i.operand s).1 s' = storeSlots i
      ⟨some ea', some base, (resolve i.operand s).1.crossed⟩ s' := fun s' => by rw [← hea', ← hbase]
  exact (BusActivity.of_busWrite room (value := fun s' => value (before s') &&& (hi base + 1))
    (fun s' => (slots s').trans (slot ..)) fun u s' => by simp only [blind, and_self]).effect (regs := fun _ => before)
    (fun s' => by rw [storeHigh_eq, commutes, hbase]; rfl) (fun _ => register) fun _ _ => rfl

end Machine

end Sys2Proof
end

section
/-! The stack and control instructions as effects on the state: the pushes and pulls as logs, and that neither looks at
what is hidden. -/

namespace Sys2Proof.Machine

/-! ## Pushes and pulls -/

theorem busLog_push (v : Byte) (s : State) : BusLog s (s.push v) [.write (stackAddr s.sp) v] :=
  ⟨rfl, s.push_mem v, rfl⟩

theorem busLog_pull (s : State) : BusLog s s.pull.2 [.read (stackAddr (s.sp + 1)) s.pull.1] := ⟨rfl, rfl, rfl⟩

theorem busLog_readPair (a b : Word) (s : State) :
    BusLog s (s.readPair a b).2 [.read b ((s.busRead a).2.peek b), .read a (s.peek a)] := ⟨rfl, rfl, rfl⟩

/-- A change of registers, flags and hidden state makes no transaction. -/
theorem BusLog.congr {s t t' : State} {log : List BusTxn} (h : BusLog s t log) (trace : t'.trace = t.trace)
    (mem : t'.mem = t.mem) (busMap : t'.busMap = t.busMap) : BusLog s t' log :=
  ⟨trace.trans h.trace, mem.trans h.mem, busMap.trans h.busMap⟩

/-- A log does not depend on the registers, flags and hidden state it starts from. -/
theorem BusLog.congr_start {s s' t : State} {log : List BusTxn} (h : BusLog s' t log) (trace : s'.trace = s.trace)
    (mem : s'.mem = s.mem) (busMap : s'.busMap = s.busMap) : BusLog s t log :=
  log.append_nil ▸ ((BusLog.refl s).congr trace mem busMap).trans h

theorem push_withHidden (v : Byte) (u s : State) : (u.withHidden s).push v = u.withHidden (s.push v) := rfl

theorem pull_withHidden (u s : State) : (u.withHidden s).pull = (s.pull.1, u.withHidden s.pull.2) := rfl

theorem pByte_withHidden {u s : State} (sameD : u.flagD = s.flagD) (b : Bool) :
    (u.withHidden s).pByte b = s.pByte b := by
  simp only [State.pByte, State.withHidden, sameD]

/-! ## Exceptions -/

/-- R310: an entry is three writes at the stack and the two reads of the vector. -/
theorem interruptEntry_busLog (vector : Word) (b : Bool) (s : State) :
    ∃ log, BusLog s (s.interruptEntry vector b) log ∧ log.length = 5 ∧ ∀ a v, .write a v ∈ log →
      a ∈ [stackAddr s.sp, stackAddr (s.sp - 1), stackAddr (s.sp - 1 - 1)] := by
  have pushes := ((busLog_push (hi s.pc) s).trans (busLog_push (lo s.pc) _)).trans (busLog_push (s.pByte b) _)
  have masked := pushes.congr (t' := State.setI true _) rfl rfl rfl
  exact ⟨_, (masked.trans (busLog_readPair vector (vector + 1) _)).congr rfl rfl rfl, rfl, by simp [or_imp, forall_and]⟩

/-- R315: a return is three reads at the stack. -/
theorem interruptReturn_busLog (s : State) :
    ∃ log, BusLog s s.interruptReturn log ∧ log.length = 3 ∧ ∀ a v, .write a v ∉ log := by
  have status := (busLog_pull s).congr (t' := s.pull.2.setP s.pull.1) rfl rfl rfl
  exact ⟨_, ((status.trans (busLog_pull _)).trans (busLog_pull _)).congr rfl rfl rfl, rfl, by simp⟩

/-- An entry pushes `D`, and looks at nothing else that is hidden. -/
theorem interruptEntry_withHidden {u s : State} (sameD : u.flagD = s.flagD) (vector : Word) (b : Bool) :
    (u.withHidden s).interruptEntry vector b = u.withHidden (s.interruptEntry vector b) := by
  simp only [State.interruptEntry, pByte_withHidden sameD, push_withHidden]
  rfl

/-- A return sets `D` from the pulled status and leaves the rest of what is hidden. -/
theorem interruptReturn_withHidden (u s : State) :
    (u.withHidden s).interruptReturn =
      { u.withHidden s.interruptReturn with flagD := s.interruptReturn.flagD } := by
  simp only [State.interruptReturn, pull_withHidden]
  rfl

/-! ## The instructions -/

@[simp] theorem storeSlots_pha (r : Resolved) (s : State) : storeSlots .pha r s = [stackAddr s.sp] := rfl

@[simp] theorem storeSlots_php (r : Resolved) (s : State) : storeSlots .php r s = [stackAddr s.sp] := rfl

@[simp] theorem storeSlots_jsr (w : Word) (r : Resolved) (s : State) :
    storeSlots (.jsr w) r s = [stackAddr s.sp, stackAddr (s.sp - 1)] := rfl

@[simp] theorem storeSlots_brk (r : Resolved) (s : State) :
    storeSlots .brk r s = [stackAddr s.sp, stackAddr (s.sp - 1), stackAddr (s.sp - 1 - 1)] := rfl

theorem effect_brk (r : Resolved) : Effect .brk r fun s => (s.setPC (s.pc + 1)).interruptEntry vecIrq true where
  frame s := by
    rw [State.interruptEntry_frame]
    rfl
  hidden u s sameD := interruptEntry_withHidden (s := s.setPC (s.pc + 1)) (sameD rfl) vecIrq true
  bus s := by
    obtain ⟨log, busLog, length, slots⟩ := interruptEntry_busLog vecIrq true (s.setPC (s.pc + 1))
    exact ⟨log, busLog.congr_start rfl rfl rfl, length.le, slots⟩

theorem effect_rti (r : Resolved) : Effect .rti r State.interruptReturn where
  frame s := by
    rw [State.interruptReturn_frame]
    rfl
  hidden u s _ := interruptReturn_withHidden u s
  bus s := by
    obtain ⟨log, busLog, length, none⟩ := interruptReturn_busLog s
    exact ⟨log, busLog, length.le, fun a v h => absurd h (none a v)⟩

theorem effect_pha (r : Resolved) : Effect .pha r fun s => s.push s.a where
  frame s := rfl
  hidden u s _ := rfl
  bus s := ⟨_, busLog_push .., Nat.le_succ 1, by simp⟩

theorem effect_php (r : Resolved) : Effect .php r fun s => s.push (s.pByte true) where
  frame s := rfl
  hidden u s sameD := by
    rw [pByte_withHidden (sameD rfl)]
    rfl
  bus s := ⟨_, busLog_push .., Nat.le_succ 1, by simp⟩

theorem effect_pla (r : Resolved) : Effect .pla r fun s => (s.pull.2.setA s.pull.1).setZN s.pull.1 where
  frame s := rfl
  hidden u s _ := rfl
  bus s := ⟨_, (busLog_pull s).congr rfl rfl rfl, Nat.le_succ 1, by simp⟩

theorem effect_plp (r : Resolved) : Effect .plp r fun s => s.pull.2.setP s.pull.1 where
  frame s := rfl
  hidden u s _ := rfl
  bus s := ⟨_, (busLog_pull s).congr rfl rfl rfl, Nat.le_succ 1, by simp⟩

theorem effect_rts (r : Resolved) :
    Effect .rts r fun s => s.pull.2.pull.2.setPC (w16 s.pull.2.pull.1 s.pull.1 + 1) where
  frame s := rfl
  hidden u s _ := rfl
  bus s := ⟨_, ((busLog_pull s).trans (busLog_pull _)).congr rfl rfl rfl, le_rfl, by simp⟩

theorem effect_jsr (w ea : Word) (r : Resolved) :
    Effect (.jsr w) r fun s => ((s.push (hi (s.pc - 1))).push (lo (s.pc - 1))).setPC ea where
  frame s := rfl
  hidden u s _ := rfl
  bus s := ⟨_, ((busLog_push ..).trans (busLog_push ..)).congr rfl rfl rfl, le_rfl, by simp [or_imp, forall_and]⟩

theorem effect_jmp (o : Operand) (ea : Word) (r : Resolved) : Effect (.jmp o) r fun s => s.setPC ea :=
  RegisterEffect.effect ⟨fun _ => rfl, fun _ _ => rfl⟩ r

end Sys2Proof.Machine
end

section
/-! Every instruction has one of the shapes of `Behaves`: the instructions class by class, each by its equation. -/

namespace Sys2Proof.Machine

/-- R186, R187: what `AddWithCarry` writes. -/
theorem registerEffect_addWithCarry {i : Instr} (a : writesA i = true) (c : writesC i = true) (zn : writesZN i = true)
    (v : writesV i = true) (d : writesD i = false) (m : Byte) : RegisterEffect i (State.addWithCarry m) where
  frame s := by simp only [State.addWithCarry_eq, confined, a, c, zn, v, if_true, ite_self]
  hidden u s := by simp only [State.addWithCarry_eq, State.withHidden, d, Bool.false_eq_true, if_false]

/-- Only an Accumulator operand is in Accumulator mode. -/
theorem mode_eq_acc {o : Operand} : o.mode = .acc ↔ o = .acc := by
  cases o <;> simp [Operand.mode]

/-- R200 to R203: a shift or rotate, on `A` or on memory. -/
theorem behaves_shift {i : Instr} {g : Byte → Bool → Byte × Bool} (runs : ∀ s, exec i s = runShift i g s)
    (room : i.transactions = 2) (a : writesA i = (i.operand.mode == .acc)) (c : writesC i = true)
    (zn : writesZN i = true) (d : writesD i = false) (mem : writesMem i = (i.operand.mode != .acc))
    (slots : ∀ r s, storeSlots i r s = if writesMem i then r.ea.toList else []) : Behaves i := by
  by_cases acc : i.operand = .acc
  · have a : writesA i = true := by rw [a, acc]; rfl
    refine .of_runImplied (fun s => (runs s).trans (runShift_acc acc g s)) ⟨fun s => ?frame, fun u s => ?hidden⟩
    case frame =>
      simp only [State.setC, State.setA, State.setZN, confined, a, c, zn, if_true, ite_self]
    case hidden =>
      simp only [State.setC, State.setA, State.setZN, State.withHidden, d, Bool.false_eq_true, if_false]
  · have mem : writesMem i = true := by rw [mem, bne_iff_ne, ne_eq, mode_eq_acc]; exact acc
    refine .of_runModify (fun s => (runs s).trans (runShift_memory acc g s)) room
      (fun r s => by rw [slots, mem, if_pos rfl]) fun m => ⟨fun s => ?frame, fun u s => ?hidden⟩
    case frame => simp only [State.setC, State.setZN, confined, c, zn, if_true, ite_self]
    case hidden => simp only [State.setC, State.setZN, State.withHidden, d, Bool.false_eq_true, if_false]

/-- R279: the high-byte stores are rows in the modes that have a base. -/
theorem ahx_based {o : Operand} (row : (Instr.ahx o).form ≠ none) (s : State) :
    ∃ ea base, (resolve o s).1.ea = some ea ∧ (resolve o s).1.base = some base := by
  cases o
  case aby | izy => exact ⟨_, _, rfl, rfl⟩
  all_goals exact absurd rfl row

/-- Every instruction has one of the shapes. -/
theorem behaves (i : Instr) : Behaves i := by
  cases i
  case tax | tay | txa | tya | tsx | txs | inx | iny | dex | dey | clc | sec | cli | sei | clv | cld | sed | nop =>
    apply Behaves.of_runImplied
    · intro s
      simp only [exec_tax, exec_tay, exec_txa, exec_tya, exec_tsx, exec_txs, exec_inx, exec_iny, exec_dex, exec_dey,
        exec_clc, exec_sec, exec_cli, exec_sei, exec_clv, exec_cld, exec_sed, exec_nop]
      rfl
    · exact ⟨fun _ => rfl, fun _ _ => rfl⟩
  case lda | ldx | ldy | lax | ora | and | eor | cmp | cpx | cpy | bit | laxImm | las | anc | alr | arr | xaa | axs =>
    apply Behaves.of_runRead (room := rfl)
    · intro s
      simp only [exec_lda, exec_ldx, exec_ldy, exec_lax, exec_ora, exec_and, exec_eor, exec_cmp, exec_cpx, exec_cpy,
        exec_bit, exec_laxImm, exec_las, exec_anc, exec_alr, exec_arr, exec_xaa, exec_axs]
      rfl
    · exact fun _ => ⟨fun _ => rfl, fun _ _ => rfl⟩
  case adc | sbc | sbcU =>
    apply Behaves.of_runRead (room := rfl)
    · intro s
      simp only [exec_adc, exec_sbc, exec_sbcU]
      rfl
    · exact fun _ => registerEffect_addWithCarry rfl rfl rfl rfl rfl _
  case nopU op o =>
    by_cases imp : o = .imp
    · rw [imp]
      exact .of_runImplied (exec_nopU_imp op) (.unchanged rfl)
    · exact .of_runRead (exec_nopU imp op) rfl fun _ => .unchanged rfl
  case sta | stx | sty | sax =>
    apply Behaves.of_runStore (room := rfl) (keepsD := rfl) (slot := fun _ _ => rfl)
    · intro s
      simp only [exec_sta, exec_stx, exec_sty, exec_sax]
      rfl
    · exact fun _ _ => rfl
  case inc | dec | slo | rla | sre | dcp =>
    apply Behaves.of_runModify (room := rfl) (slot := fun _ _ => rfl)
    · intro s
      simp only [exec_inc, exec_dec, exec_slo, exec_rla, exec_sre, exec_dcp]
      rfl
    · exact fun _ => ⟨fun _ => rfl, fun _ _ => rfl⟩
  case rra o => exact .of_runModify (exec_rra o) rfl (fun _ _ => rfl) fun _ => ⟨fun _ => rfl, fun _ _ => rfl⟩
  case isc o => exact .of_runModify (exec_isc o) rfl (fun _ _ => rfl) fun _ => ⟨fun _ => rfl, fun _ _ => rfl⟩
  case asl o => exact behaves_shift (exec_asl o) rfl rfl rfl rfl rfl rfl fun _ _ => rfl
  case lsr o => exact behaves_shift (exec_lsr o) rfl rfl rfl rfl rfl rfl fun _ _ => rfl
  case rol o => exact behaves_shift (exec_rol o) rfl rfl rfl rfl rfl rfl fun _ _ => rfl
  case ror o => exact behaves_shift (exec_ror o) rfl rfl rfl rfl rfl rfl fun _ _ => rfl
  case shy | shx | tas =>
    apply Behaves.of_runStoreHigh (room := rfl)
    · intro s
      simp only [exec_shy, exec_shx, exec_tas]
      rfl
    · exact fun _ s => ⟨_, _, rfl, rfl⟩
    · exact fun _ _ _ _ => rfl
    · exact ⟨fun _ => rfl, fun _ _ => rfl⟩
    · exact fun _ _ _ => rfl
    · exact fun _ _ => rfl
  case ahx o =>
    exact .of_runStoreHigh (exec_ahx o) ahx_based rfl (fun _ _ _ _ => rfl) (.unchanged rfl) (fun _ _ _ => rfl)
      fun _ _ => rfl
  case bpl | bmi | bvc | bvs | bcc | bcs | bne | beq =>
    apply Behaves.branch
    · intro s
      simp only [exec_bpl, exec_bmi, exec_bvc, exec_bvs, exec_bcc, exec_bcs, exec_bne, exec_beq]
      rfl
    · exact fun _ _ => rfl
    · rfl
    · rfl
    · exact ⟨_, rfl⟩
  case jmp o => exact .addressed _ (exec_jmp o) fun _ _ ea _ => effect_jmp o ea _
  case jsr w => exact .addressed _ (exec_jsr w) fun _ _ ea _ => effect_jsr w ea _
  case rts => exact .implied _ exec_rts effect_rts
  case pha => exact .implied _ exec_pha effect_pha
  case php => exact .implied _ exec_php effect_php
  case pla => exact .implied _ exec_pla effect_pla
  case plp => exact .implied _ exec_plp effect_plp
  case brk => exact .implied _ exec_brk effect_brk
  case rti => exact .implied _ exec_rti effect_rti
  case invalid op => exact .sentinel op rfl
end Sys2Proof.Machine
end

section
/-! What is true of every answer of `exec`: its frame, its transactions and slots, its cycles, and that it would have been
the same with other hidden state. -/

namespace Sys2Proof

/-- How many cycles a row's penalty adds at most (R153, R220). -/
def Penalty.extra : Penalty → Nat
  | .never => 0
  | .cross => 1
  | .branch => 2

namespace Machine

/-- What is true of every answer `t` of an instruction other than the sentinel. -/
structure Answer (i : Instr) (s t : State) : Prop where
  frame : t = { confined i s t with mem := t.mem, trace := t.trace, cyclesRemaining := t.cyclesRemaining }
  bus : ∃ log, BusLog s t log ∧ log.length ≤ i.transactions + i.operand.pointerReads ∧
    ∀ a v, .write a v ∈ log → a ∈ storeSlots i (resolve i.operand s).1 s
  hidden : ∀ u : State, (pushesStatus i = true → u.flagD = s.flagD) → exec i (u.withHidden s) =
    .next { u.withHidden t with
      cyclesRemaining := t.cyclesRemaining, flagD := if writesD i then t.flagD else u.flagD }
  cycles : ∀ f, i.form = some f → t.cyclesRemaining ≤ f.cycles + f.penalty.extra - 1

theorem storeSlots_of_trace (i : Instr) (r : Resolved) (s : State) (tr : List BusTxn) :
    storeSlots i r { s with trace := tr } = storeSlots i r s := by
  cases i <;> rfl

/-- R153: the page-cross cycle is charged to the rows that have that penalty. -/
theorem cross_le_extra (p : Penalty) (crossed : Bool) : (p == .cross && crossed).toNat ≤ p.extra := by
  cases p <;> cases crossed <;> decide

/-- The answer of an effect, run where the resolver leaves the trace at `tr`. -/
theorem Effect.answer {i : Instr} {f : Form} {e : State → State} {crossed : Bool} {taken : Nat} {s : State}
    {tr : List BusTxn}
    (effect : Effect i (resolve i.operand s).1 e) (form : i.form = some f)
    (pointer : ∃ log, BusLog s { s with trace := tr } log ∧ log.length ≤ i.operand.pointerReads ∧
      ∀ a v, .write a v ∉ log)
    (extra : (f.penalty == .cross && crossed).toNat + taken ≤ f.penalty.extra)
    (same : ∀ u : State,
      exec i (u.withHidden s) = .next ((e (u.withHidden { s with trace := tr })).charge f crossed taken)) :
    Answer i s ((e { s with trace := tr }).charge f crossed taken) where
  frame := congrArg (State.charge f crossed taken) (effect.frame { s with trace := tr })
  bus := by
    obtain ⟨log, busLog, length, slots⟩ := effect.bus { s with trace := tr }
    obtain ⟨reads, readsLog, readsLength, none⟩ := pointer
    refine ⟨_, (readsLog.trans busLog).congr rfl rfl rfl, ?length, fun a v h => ?slots⟩
    case length =>
      rw [List.length_append]
      omega
    case slots =>
      rw [← storeSlots_of_trace i _ s tr]
      exact slots a v ((List.mem_append.mp h).resolve_right (none a v))
  hidden u sameD := by
    rw [same, effect.hidden u { s with trace := tr } sameD]
    rfl
  cycles f' form' := by
    cases form.symm.trans form'
    rw [charge_eq]
    dsimp only
    omega

/-! ## The shapes -/

theorem runImplied_answer {i : Instr} {f : Form} {e : State → State} (runs : ∀ s, exec i s = runImplied i e s)
    (effect : ∀ r, Effect i r e) (form : i.form = some f) (s : State) :
    Answer i s ((e s).charge f false 0) :=
  (effect _).answer (tr := s.trace) form ⟨[], .refl s, Nat.zero_le _, nofun⟩ (cross_le_extra ..)
    fun _ => (runs _).trans (runImplied_eq form e _)

/-- The resolver does not look at what is hidden. -/
theorem resolve_withHidden (o : Operand) (u s : State) :
    resolve o (u.withHidden s) = ((resolve o s).1, u.withHidden (resolve o s).2) := by
  cases o <;> rfl

theorem runAddressed_answer {i : Instr} {f : Form} {ea : Word} {e : Word → Resolved → State → State} {s : State}
    (runs : ∀ s, exec i s = runAddressed i e s) (form : i.form = some f) (hea : (resolve i.operand s).1.ea = some ea)
    (effect : Effect i (resolve i.operand s).1 (e ea (resolve i.operand s).1)) :
    Answer i s ((e ea (resolve i.operand s).1 (resolve i.operand s).2).charge f (resolve i.operand s).1.crossed 0) := by
  obtain ⟨reads, readsLog, readsLength, none⟩ := resolve_busLog i.operand s
  rw [resolve_frame] at readsLog ⊢
  refine effect.answer form ⟨reads, readsLog, readsLength.le, none⟩ (cross_le_extra ..) fun u => ?_
  have heaHidden : (resolve i.operand (u.withHidden s)).1.ea = some ea := by rw [resolve_withHidden, hea]
  rw [runs, runAddressed_eq form heaHidden, resolve_withHidden, ← resolve_frame]

/-- R220: what a branch does to `PC`. -/
def branchEffect (d : Byte) (cond : State → Bool) (s : State) : State :=
  if cond s then s.setPC (branchTarget d s) else s

/-- R220: the cycles a branch adds. -/
def branchTaken (d : Byte) (cond : Bool) (s : State) : Nat :=
  if cond then 1 + (pageDiffers (branchTarget d s) s.pc).toNat else 0

theorem branchTaken_le (d : Byte) (cond : Bool) (s : State) : branchTaken d cond s ≤ 2 := by
  have page := Bool.toNat_le (pageDiffers (branchTarget d s) s.pc)
  rw [branchTaken]
  split <;> omega

theorem runBranch_eq_charge {i : Instr} {f : Form} (form : i.form = some f) (d : Byte) (cond : State → Bool)
    (s : State) :
    runBranch i d (cond s) s = .next ((branchEffect d cond s).charge f false (branchTaken d (cond s) s)) := by
  rw [runBranch_eq form, branchEffect, branchTaken]
  cases cond s <;> rfl

theorem registerEffect_branch {i : Instr} (d : Byte) {cond : State → Bool}
    (blind : ∀ u s : State, cond (u.withHidden s) = cond s) (control : transfersControl i = true)
    (keepsD : writesD i = false) : RegisterEffect i (branchEffect d cond) where
  frame s := by
    cases taken : cond s <;>
      simp only [branchEffect, taken, if_true, Bool.false_eq_true, if_false, State.setPC, confined, control, ite_self]
  hidden u s := by
    rw [branchEffect, branchEffect, blind]
    cases cond s <;> simp only [keepsD, if_true, Bool.false_eq_true, if_false] <;> rfl

theorem runBranch_answer {i : Instr} {d : Byte} {cond : State → Bool} {opcode : Byte}
    (runs : ∀ s, exec i s = runBranch i d (cond s) s) (register : RegisterEffect i (branchEffect d cond))
    (blind : ∀ u s : State, cond (u.withHidden s) = cond s) (form : i.form = some ⟨opcode, 2, .branch⟩) (s : State) :
    Answer i s ((branchEffect d cond s).charge ⟨opcode, 2, .branch⟩ false (branchTaken d (cond s) s)) := by
  refine (register.effect _).answer (tr := s.trace) form ⟨[], .refl s, Nat.zero_le _, nofun⟩ ?extra fun u => ?same
  case extra => exact (Nat.zero_add _).trans_le (branchTaken_le d (cond s) s)
  case same =>
    rw [runs, runBranch_eq_charge form, blind]
    rfl

/-! ## Every instruction -/

/-- What is true of every answer of an instruction other than the sentinel. -/
theorem exec_answer {i : Instr} {s t : State} (sentinel : ∀ op, i ≠ .invalid op) (h : exec i s = .next t) :
    Answer i s t := by
  cases behaves i with
  | implied e runs effect =>
    obtain ⟨f, form, rfl⟩ := runImplied_next ((runs s).symm.trans h)
    exact runImplied_answer runs effect form s
  | addressed e runs effect =>
    obtain ⟨f, ea, tr, form, hea, resolved, rfl⟩ := runAddressed_next ((runs s).symm.trans h)
    rw [← resolved]
    exact runAddressed_answer runs form hea (effect (by simp [form]) s ea hea)
  | branch d cond runs blind control keepsD form =>
    obtain ⟨opcode, form⟩ := form
    cases ((runBranch_eq_charge form d cond s).symm.trans (runs s).symm).trans h
    exact runBranch_answer runs (registerEffect_branch d blind control keepsD) blind form s
  | sentinel op same => exact absurd same (sentinel op)

/-- R98, R303: a term that is no row stops with the fault of R303. -/
theorem exec_fault {i : Instr} (form : i.form = none) (s : State) : exec i s = .fault .unsupportedAddressingMode := by
  cases behaves i with
  | implied e runs => rw [runs, runImplied, form]
  | addressed e runs => rw [runs, runAddressed, form]
  | branch d cond runs => rw [runs, runBranch, form]
  | sentinel op same =>
    subst same
    simp only [exec, execInvalid, form]

end Machine

end Sys2Proof
end

section
/-! The rules about all instructions: which rows answer, what each answer leaves unchanged, and what no answer depends
on. -/

namespace Sys2Proof.Machine

/-! ## The sentinel -/

/-- If the sentinel answers a next state, it stands for one of the twelve bytes and has raised the fault. -/
theorem exec_invalid_next {op : Byte} {s t : State} (h : exec (.invalid op) s = .next t) :
    op ∈ invalidOpcodes ∧ t = s.raiseUnimplemented op := by
  cases form : (Instr.invalid op).form with
  | none => cases (exec_fault form s).symm.trans h
  | some f =>
    have listed := (invalid_of_form form).1
    cases (exec_invalid listed s).symm.trans h
    exact ⟨listed, rfl⟩

/-- What an answer changes besides what the instruction's rule names: contents, trace, counter and fault latch. -/
theorem exec_frame {i : Instr} {s t : State} (h : exec i s = .next t) :
    t = { confined i s t with
      mem := t.mem, trace := t.trace, cyclesRemaining := t.cyclesRemaining, fault := t.fault } := by
  by_cases sentinel : ∃ op, i = .invalid op
  · obtain ⟨op, rfl⟩ := sentinel
    obtain ⟨-, rfl⟩ := exec_invalid_next h
    rfl
  · have frame := (exec_answer (not_exists.mp sentinel) h).frame
    have fault : t.fault = s.fault := by rw [frame]; rfl
    rw [fault]
    exact frame

/-- The transactions of an answer, and that its writes are at the instruction's slots. -/
theorem exec_busLog {i : Instr} {s t : State} (h : exec i s = .next t) :
    ∃ log, BusLog s t log ∧ log.length ≤ i.transactions + i.operand.pointerReads ∧
      ∀ a v, .write a v ∈ log → a ∈ storeSlots i (resolve i.operand s).1 s := by
  by_cases sentinel : ∃ op, i = .invalid op
  · obtain ⟨op, rfl⟩ := sentinel
    obtain ⟨-, rfl⟩ := exec_invalid_next h
    exact ⟨[], (BusLog.refl s).congr rfl rfl rfl, Nat.zero_le _, nofun⟩
  · exact (exec_answer (not_exists.mp sentinel) h).bus

/-! ## The obligations -/

/-- Settles O10: a row other than the sentinel keeps the fault latch in the state it answers, the sentinel's rows raise
the fault, and a term without a form is refused by every shape. -/
theorem rowsCompleteAndOtherTermsFault : Obligations.RowsCompleteAndOtherTermsFault := by
  intro i s
  refine ⟨fun wf => ?row, fun none => exec_fault (not_wellFormed_iff.mp none) s⟩
  case row =>
    obtain ⟨f, form⟩ := wellFormed_iff.mp wf
    by_cases sentinel : ∃ op, i = .invalid op
    · obtain ⟨op, rfl⟩ := sentinel
      exact ⟨_, exec_invalid (invalid_of_form form).1 s⟩
    · obtain ⟨t, answers, -⟩ := exec_keepsFault form (not_exists.mp sentinel) s
      exact ⟨t, answers⟩

/-- A field that is new only where a rule names it is the old one elsewhere. -/
theorem kept_of_unnamed {α : Type} {named : Bool} {new old : α} (h : new = if named then new else old)
    (unnamed : named = false) : new = old := by
  simpa [unnamed] using h

/-- Settles O54: the flags of the frame. -/
theorem flagsChangeOnlyWhereNamed : Obligations.FlagsChangeOnlyWhereNamed := by
  intro i s t h
  have frame := exec_frame h
  exact ⟨kept_of_unnamed (congrArg State.flagC frame),
    fun unnamed => ⟨kept_of_unnamed (congrArg State.flagZ frame) unnamed,
      kept_of_unnamed (congrArg State.flagN frame) unnamed⟩,
    kept_of_unnamed (congrArg State.flagI frame), kept_of_unnamed (congrArg State.flagD frame),
    kept_of_unnamed (congrArg State.flagV frame)⟩

/-- Settles O55: the registers of the frame. -/
theorem registersChangeOnlyWhereNamed : Obligations.RegistersChangeOnlyWhereNamed := by
  intro i s t h
  have frame := exec_frame h
  exact ⟨kept_of_unnamed (congrArg State.a frame), kept_of_unnamed (congrArg State.x frame),
    kept_of_unnamed (congrArg State.y frame), kept_of_unnamed (congrArg State.sp frame),
    kept_of_unnamed (congrArg State.pc frame)⟩

/-- An instruction that writes no memory has no slot. -/
theorem storeSlots_of_not_writesMem {i : Instr} (none : writesMem i = false) (r : Resolved) (s : State) :
    storeSlots i r s = [] := by
  cases i
  case pha | php | jsr | brk | ahx | shy | shx | tas => cases none
  all_goals exact if_neg (t := r.ea.toList) (Bool.eq_false_iff.mp none)

/-- Settles O56: without a slot the log of the answer has no write, so the contents are as before. -/
theorem memoryChangesOnlyForStores : Obligations.MemoryChangesOnlyForStores := by
  intro i s t h
  obtain ⟨log, busLog, -, slots⟩ := exec_busLog h
  refine ⟨fun none a => ?contents, busLog.busMap, fun sentinel => ?fault⟩
  case contents =>
    rw [storeSlots_of_not_writesMem none] at slots
    rw [busLog.mem, s.replay_of_no_write fun a v write => List.not_mem_nil (slots a v write)]
  case fault => rw [(exec_answer sentinel h).frame]; rfl

/-- A byte at none of the instruction's slots is as before. -/
theorem exec_read_other {i : Instr} {s t : State} {a : Nat} (wf : s.mem.wf = true) (h : exec i s = .next t)
    (other : ∀ slot ∈ storeSlots i (resolve i.operand s).1 s, a ≠ slot.toNat) : t.mem.read a = s.mem.read a := by
  obtain ⟨log, busLog, -, slots⟩ := exec_busLog h
  rw [busLog.mem]
  exact State.read_replay_other wf fun slot v write => other slot (slots slot v write)

/-- R8: the slot of the store and read-modify-write classes is the resolved address. -/
theorem mem_storeSlots_resolved {i : Instr} {r : Resolved} {s : State} {ea slot : Word} (hea : r.ea = some ea)
    (class_ : ∀ r s, storeSlots i r s = if writesMem i then r.ea.toList else []) (h : slot ∈ storeSlots i r s) :
    slot = ea := by
  rw [class_, hea] at h
  split at h
  · exact List.mem_singleton.mp h
  · cases h

/-- R279: the slot of a high-byte store is the address its rule computes. -/
theorem storeSlots_high {i : Instr} {s : State} {v0 : Byte} (value : highStoreValue s i = some v0) :
    storeSlots i (resolve i.operand s).1 s = (s.highStoreAddress i.operand v0).toList := by
  rw [State.highStoreAddress]
  generalize (resolve i.operand s).1 = r
  obtain ⟨ea, base, crossed⟩ := r
  cases i
  case ahx | shy | shx | tas =>
    cases value
    cases ea <;> cases base <;> rfl
  all_goals cases value

/-- Settles O57: class by class, the slots of the instruction are the addresses the statement names. -/
theorem storedBytesAreTheOnlyChange : Obligations.StoredBytesAreTheOnlyChange := by
  intro i s t a wf h
  refine ⟨fun ea s1 stores address ne => exec_read_other wf h fun slot mem => ?resolved,
    fun v0 ea value address ne => exec_read_other wf h fun slot mem => ?high,
    fun push ne => exec_read_other wf h fun slot mem => ?push,
    fun jsr ne ne' => exec_read_other wf h fun slot mem => ?jsr,
    fun brk ne ne' ne'' => exec_read_other wf h fun slot mem => ?brk⟩
  case resolved =>
    obtain ⟨ea', hea, same⟩ := Option.map_eq_some_iff.mp address
    cases same
    obtain ⟨o, class_⟩ := stores
    rcases class_ with rfl | rfl | rfl | rfl | rfl | rfl | rfl | rfl | rfl | rfl | rfl | rfl | rfl | rfl | rfl | rfl
    all_goals rwa [mem_storeSlots_resolved hea (fun _ _ => rfl) mem]
  case high =>
    rw [storeSlots_high value, address] at mem
    rwa [List.mem_singleton.mp mem]
  case push =>
    rcases push with rfl | rfl
    all_goals rwa [List.mem_singleton.mp mem]
  case jsr =>
    obtain ⟨w, rfl⟩ := jsr
    rw [storeSlots_jsr, List.mem_pair] at mem
    rcases mem with rfl | rfl
    exacts [ne, ne']
  case brk =>
    subst brk
    have third : s.sp - 1 - 1 = s.sp - 2 := by bv_omega
    rw [storeSlots_brk, List.mem_cons, List.mem_pair, third] at mem
    rcases mem with rfl | rfl | rfl
    exacts [ne, ne', ne'']

theorem Answer.nmiPending {i : Instr} {s t : State} (answer : Answer i s t) : t.nmiPending = s.nmiPending := by
  rw [answer.frame]
  rfl

theorem Answer.irqPending {i : Instr} {s t : State} (answer : Answer i s t) : t.irqPending = s.irqPending := by
  rw [answer.frame]
  rfl

/-- R241, R252: only `PHP` and `BRK` push the status. -/
theorem pushesStatus_eq_true {i : Instr} : pushesStatus i = true ↔ i = .php ∨ i = .brk := by
  cases i <;> simp [pushesStatus]

/-- Settles O58: `D` is hidden from every instruction that does not push the status; the sentinel's fault record does
not hold it. -/
theorem decimalFlagIsInert : Obligations.DecimalFlagIsInert := by
  intro i s t b php brk h
  by_cases sentinel : ∃ op, i = .invalid op
  · obtain ⟨op, rfl⟩ := sentinel
    obtain ⟨listed, rfl⟩ := exec_invalid_next h
    exact exec_invalid listed _
  · have answer := exec_answer (not_exists.mp sentinel) h
    refine (answer.hidden { s with flagD := b } fun pushes => ?inert).trans ?same
    case inert => exact ((pushesStatus_eq_true.mp pushes).elim php brk).elim
    case same => simp only [State.withHidden, answer.nmiPending, answer.irqPending]

/-- Settles O59: counter and latches are hidden from every instruction. -/
theorem hiddenStateIsNotRead : Obligations.HiddenStateIsNotRead := by
  intro i s t n p q sentinel h
  have answer := exec_answer sentinel h
  have keepsD : (if writesD i then t.flagD else s.flagD) = t.flagD := (congrArg State.flagD answer.frame).symm
  refine ⟨?same, answer.nmiPending, answer.irqPending⟩
  refine (answer.hidden { s with cyclesRemaining := n, nmiPending := p, irqPending := q } fun _ => rfl).trans ?_
  simp only [State.withHidden, keepsD]

end Sys2Proof.Machine
end

section
/-! The steps as logs of bus transactions, and the invariant (R35, R66, R345). -/

namespace Sys2Proof

/-! ## Bounds on the rows -/

theorem opcodeRow_mem (op : Byte) : opcodeRow op ∈ opcodeTable := List.mem_of_getElem? (Laws.opcodeRow_eq op)

set_option maxRecDepth 2000 in
theorem opcodeTable_transactions (op : Byte) (w : Word) :
    opcodeTable.all (fun r => (r.instr op w).operand.bytes.length + (r.instr op w).transactions +
      (r.instr op w).operand.pointerReads ≤ 5) = true := rfl

/-- R66: the fetch and the execution of a row are six transactions at most. -/
theorem opcodeRow_transactions_le (op : Byte) (w : Word) :
    (encode ((opcodeRow op).instr op w)).length +
      (((opcodeRow op).instr op w).transactions + ((opcodeRow op).instr op w).operand.pointerReads) ≤ 6 := by
  have rows := List.all_eq_true.mp (opcodeTable_transactions op w) _ (opcodeRow_mem op)
  have bound := of_decide_eq_true rows
  rw [Machine.encode_eq (opcodeRow_form op w), List.length_cons]
  omega

set_option maxRecDepth 2000 in
theorem opcodeTable_cycles : opcodeTable.all (fun r => r.cycles + r.penalty.extra ≤ 8) = true := rfl

/-- R95, R153: no row takes more than eight cycles. -/
theorem opcodeRow_cycles_le (op : Byte) : (opcodeRow op).cycles + (opcodeRow op).penalty.extra ≤ 8 :=
  of_decide_eq_true (List.all_eq_true.mp opcodeTable_cycles _ (opcodeRow_mem op))

namespace Machine

/-! ## The logs of the steps -/

theorem readTrace_eq (a : Word) (bytes : List Byte) (older : List BusTxn) :
    ∃ log, readTrace a bytes older = log ++ older ∧ log.length = bytes.length ∧ ∀ a v, .write a v ∉ log := by
  induction bytes generalizing a older with
  | nil => exact ⟨[], rfl, rfl, nofun⟩
  | cons b bytes ih =>
    obtain ⟨log, trace, length, none⟩ := ih (a + 1) (.read a b :: older)
    refine ⟨log ++ [.read a b], ?_, ?_, ?_⟩
    · rw [readTrace, trace, List.append_assoc, List.singleton_append]
    · rw [List.length_append, length]
      rfl
    · simpa using none

/-- R64: the fetch reads the instruction's bytes. -/
theorem fetch_busLog (s : State) : ∃ op w log, (fetch s).1 = (opcodeRow op).instr op w ∧ BusLog s (fetch s).2 log ∧
    log.length = (encode (fetch s).1).length := by
  obtain ⟨op, b1, b2, i, -, made, fetched⟩ := fetch_eq s
  obtain ⟨log, trace, length, none⟩ := readTrace_eq s.pc (encode i) s.trace
  rw [fetched]
  exact ⟨op, w16 b2 b1, log, made, ⟨trace, (s.replay_of_no_write none).symm, rfl⟩, length⟩

theorem takeNmi_busLog (s : State) : ∃ log, BusLog s s.takeNmi log ∧ log.length = 5 := by
  obtain ⟨log, busLog, length, -⟩ := interruptEntry_busLog vecNmi false { s with nmiPending := false }
  exact ⟨log, (busLog.congr_start (s := s) rfl rfl rfl).congr rfl rfl rfl, length⟩

theorem takeIrq_busLog (s : State) : ∃ log, BusLog s s.takeIrq log ∧ log.length = 5 := by
  obtain ⟨log, busLog, length, -⟩ := interruptEntry_busLog vecIrq false { s with irqPending := false }
  exact ⟨log, (busLog.congr_start (s := s) rfl rfl rfl).congr rfl rfl rfl, length⟩

/-- R66, R71: every step is a log of at most six transactions. -/
theorem step_busLog {s t : State} (h : step s = .next t) : ∃ log, BusLog s t log ∧ log.length ≤ 6 := by
  rcases step_cases s with ⟨-, answer⟩ | ⟨-, -, answer⟩ | ⟨-, -, -, answer⟩ | ⟨-, -, -, -, -, answer⟩ | ⟨-, answer⟩
  · cases answer.symm.trans h
    exact ⟨[], .refl s, Nat.zero_le _⟩
  · cases answer.symm.trans h
    exact ⟨[], (BusLog.refl s).congr rfl rfl rfl, Nat.zero_le _⟩
  · cases answer.symm.trans h
    obtain ⟨log, busLog, length⟩ := takeNmi_busLog s
    exact ⟨log, busLog, by omega⟩
  · cases answer.symm.trans h
    obtain ⟨log, busLog, length⟩ := takeIrq_busLog s
    exact ⟨log, busLog, by omega⟩
  · obtain ⟨op, w, fetchLog, made, fetched, fetchLength⟩ := fetch_busLog s
    obtain ⟨log, busLog, length, -⟩ := exec_busLog (answer.symm.trans h)
    have bound := opcodeRow_transactions_le op w
    rw [← made] at bound
    refine ⟨log ++ fetchLog, fetched.trans busLog, ?_⟩
    rw [List.length_append]
    omega

/-- Settles O14: a step is a log; at an Idle or faulted tick the trace is not touched. -/
theorem stepOnlyExtendsTheTrace : Obligations.StepOnlyExtendsTheTrace := by
  intro s t h
  obtain ⟨log, busLog, length⟩ := step_busLog h
  refine ⟨busLog.busMap, ⟨log, busLog.trace, length⟩, fun quiet => ?quiet⟩
  by_cases running : s.fault = none
  · cases (step_idle running (quiet.resolve_left (absurd running))).symm.trans h
    rfl
  · cases (step_halted running).symm.trans h
    rfl

/-! ## The invariant -/

theorem faultOk_of_running {s : State} (running : s.fault = none) : s.faultOk = true := by
  rw [State.faultOk, running]

/-- R128, R302: the latch of a fault just raised. -/
theorem faultOk_raiseUnimplemented {s : State} {op : Byte} (listed : op ∈ invalidOpcodes)
    (done : s.cyclesRemaining = 0) : (s.raiseUnimplemented op).faultOk = true := by
  simp [State.faultOk, State.raiseUnimplemented, listed, done]

/-- R124, R345: an instruction step from no cycles left leaves at most seven, and a latch as R302 lets it be. -/
theorem step_instruction_bounds {s t : State} (at_ : s.AtInstruction) (h : step s = .next t) :
    t.cyclesRemaining ≤ 7 ∧ t.faultOk = true := by
  by_cases invalid : s.peek s.pc ∈ invalidOpcodes
  · cases (step_invalid at_ invalid).symm.trans h
    exact ⟨at_.no_cycles.trans_le (Nat.zero_le 7), faultOk_raiseUnimplemented invalid at_.no_cycles⟩
  · rw [step_instruction at_] at h
    have answer := exec_answer (fetch_ne_invalid invalid) h
    have cycles := answer.cycles _ (fetch_form s)
    have row := opcodeRow_cycles_le (s.peek s.pc)
    have running : t.fault = none := by
      rw [answer.frame]
      exact (fetch_fault s).trans at_.running
    exact ⟨by dsimp only at cycles; omega, faultOk_of_running running⟩

/-- Settles O12: contents stay canonical through every log; the counter and the latch by the five cases of a tick. -/
theorem stepKeepsTheInvariant : Obligations.StepKeepsTheInvariant := by
  intro s t inv h
  obtain ⟨log, busLog, -⟩ := step_busLog h
  have wf : t.mem.wf = true := busLog.mem ▸ State.replay_wf inv.mem_wf log
  rcases step_cases s with ⟨-, answer⟩ | ⟨running, -, answer⟩ | ⟨running, -, -, answer⟩ |
    ⟨running, -, -, -, -, answer⟩ | ⟨at_, -⟩
  · cases answer.symm.trans h
    exact inv
  · cases answer.symm.trans h
    exact ⟨wf, (Nat.sub_le ..).trans inv.cycles_le, faultOk_of_running running⟩
  · cases answer.symm.trans h
    exact ⟨wf, Nat.le_succ 6, faultOk_of_running (s.takeNmi_fault.trans running)⟩
  · cases answer.symm.trans h
    exact ⟨wf, Nat.le_succ 6, faultOk_of_running (s.takeIrq_fault.trans running)⟩
  · obtain ⟨cycles, faultOk⟩ := step_instruction_bounds at_ h
    exact ⟨wf, cycles, faultOk⟩

end Machine

end Sys2Proof
end
